-- ==== Sys2Proof/Word.lean ====
section
/-! DEFINITION. The bit-vector types of what crosses the host bus (chapter 11). Counts, ticks, slot numbers and
indices are not words: they are `Nat`s (or `Fin`s) with the bounds the spec gives them. -/

namespace Sys2Proof

/-- One byte. -/
abbrev Byte := BitVec 8

/-- A 16-bit field (tags, flags). -/
abbrev Half := BitVec 16

/-- A 32-bit field: one word of the register window, a handle, a count. -/
abbrev Word := BitVec 32

/-- A 64-bit field: a host address, a tick value on the bus, a cookie. -/
abbrev DWord := BitVec 64

/-- A command record: 64 bytes, byte `i` of the record in bits `8·i` to `8·i + 7` (section 11.3, R202: every
multi-byte field is little-endian, so a field of `k` bytes at offset `o` is bits `8·o` to `8·(o + k) − 1`). -/
abbrev CommandBits := BitVec 512

/-- 32 bytes in the same order: a completion record (section 11.4), an image header or entry record (section 11.5). A
trailer (8 bytes) or a handle (4 bytes) stands in the low bits, the others 0. -/
abbrev RecordBits := BitVec 256

end Sys2Proof
end

