-- ==== Sys2Proof/Syntax.lean ====
section
/-! DEFINITION. The commands of the block: one constructor per row of spec/opcode_table.json, in the table's order.

The nineteen command kinds and INVALID_KIND have no operand of their own: their fields are in the 64-byte record that waits in
the Command Executor's input place (R106), where RECORD_ARRIVAL put it (R141). The engine's own events have an operand only
where the spec leaves to the outside which ring, domain or data they concern. -/

namespace Sys2Proof

/-- R197: the width of one access to the register window. One narrower than 32 bits concerns "the corresponding bytes of the word": one, two or three of
them (DEDUCED, assumption log 36). -/
inductive AccessWidth where
  /-- one byte: narrower than a word -/
  | byte
  /-- two bytes: narrower than a word -/
  | half
  /-- three bytes: narrower than a word -/
  | threeBytes
  /-- `count` 32-bit words in ascending address order: one aligned word, or a wider access taken as its words -/
  | words (count : Nat)
deriving DecidableEq, Repr

/-- R197: what one read of the register window returns, by its width. -/
inductive RegisterData where
  | byte (value : Byte)
  | half (value : Half)
  | threeBytes (value : BitVec 24)
  /-- the words of the read, the lowest address first -/
  | words (values : List Word)
deriving DecidableEq, Repr

/-- The commands: what the host, the link, the reference input or the engine's own blocks can make happen. -/
inductive Instr where
  -- the nineteen command kinds (chapter 6): the executor takes the record in its input place, whose kind this is
  | arm
  | rearm
  | cancel
  | kick
  | query
  | readStatus
  | openSubmissionRing
  | closeSubmissionRing
  | openCompletionRing
  | closeCompletionRing
  | restartCompletionRing
  | setTimebase
  | createDomain
  | destroyDomain
  | pauseDomain
  | resumeDomain
  | exportDomain
  | importDomain
  | abortTransfer
  /-- the record's kind byte is none of the nineteen -/
  | invalidKind
  /-- the waiting ARM's allocation claim is taken -/
  | allocation
  -- the register window (chapter 10)
  /-- a 32-bit write to the tail register of submission ring `ring` -/
  | srTailWrite (ring : Fin 8) (value : Word)
  /-- a 32-bit write to the head register of completion ring `ring` -/
  | crHeadWrite (ring : Fin 8) (value : Word)
  | enableSet
  | enableClear
  | deviceReset
  | powerOnReset
  /-- a read of `width` at byte `offset` of the register window that covers DEVICE_TIME's low word, or bytes of it; where no place is
  written out, the read of that word itself -/
  | deviceTimeLowRead (offset : Nat := 0x040) (width : AccessWidth := .words 1)
  /-- a write of `width` at byte `offset` of the register window; `value` holds the access's words, the lowest address first, and the data of a
  narrower access in the low bits of its one word -/
  | registerWrite (offset : Nat) (width : AccessWidth) (value : List Word)
  /-- the drain is complete: the disable event -/
  | disable
  -- the Submission Fetcher (chapter 7)
  | arbitration
  /-- the link returns the 64 bytes of the command record being read -/
  | recordArrival (record : CommandBits)
  | readBusError
  -- the Timebase (chapter 5)
  | tickEvent
  /-- a rising edge of REFIN, `elapsed` monitor units after the start of the loss window, which is the last edge when there is one -/
  | refinEdge (elapsed : Nat)
  | loss
  /-- the edge that completes a good run, `elapsed` monitor units after the last edge -/
  | goodRun (elapsed : Nat)
  | edgeEquivalent
  -- the Timing Wheel (chapter 2)
  | wheelStep
  | overflowSweep
  | cascade
  | l0Emptying
  | stepEnd
  -- the Expiry Unit (chapter 3)
  | take
  -- the Completion Poster (chapter 8)
  | drain (ring : Fin 8)
  | eventPost
  | countTrigger (ring : Fin 8)
  | delayTrigger (ring : Fin 8)
  | writeDone
  | writeFailed
  -- the Domain Table (chapter 4)
  | destroyWalkVisit (domain : Fin 64)
  | destroyWalkEnd (domain : Fin 64)
  -- the Transfer Unit (chapter 9)
  | exportVisit
  | transferWriteDone
  | exportRelease
  /-- the link returns the data of the image read in flight: 32 bytes, or the trailer's 8 in the low bits -/
  | transferReadDone (data : RecordBits)
  | importCreation
  | transferBusError
deriving DecidableEq, Repr

end Sys2Proof
end

