-- ==== Sys2Proof/Decode.lean ====
section
/-! DEFINITION. Reading a command from a word of the opcode table. -/

namespace Sys2Proof

/-- The command that a word spells by the table's bits. spec/opcode_table.json gives no row any bits ("fields" is empty in each of
its 58 rows and none has "fixed"), so no word spells a command (DEDUCED, assumption log 2). The 64-byte command record of section 11.3 is not
the table's word: `Machine/Operands.lean` reads it, from the executor's input place. -/
def decodeTableWord (_nbits _w : Nat) : Option Instr := none

end Sys2Proof
end

