-- ==== Sys2Proof/Config.lean ====
section
/-! DEFINITION. What the part fixes (the sizes and limits the spec states) and what the spec leaves open (opaque
constants: nothing in Lean can evaluate them, so a theorem holds whatever they are). -/

namespace Sys2Proof.Config

/-- R1: the Timer Table holds 16,384 entries. -/
def tableSize : Nat := 16384

/-- The largest tick value, 2^64 − 1 (R2, R91). -/
def maxTick : Nat := 2 ^ 64 - 1

/-- R53: total fires stop at 4,294,967,295; R59, R60: so does a missed count. -/
def maxCount32 : Nat := 2 ^ 32 - 1

/-- R60: a fire count stops at 65,535; R164: so do an event's occurrences. -/
def maxCount16 : Nat := 65535

/-- R42: a lag above 4,096 ticks is an overrun. -/
def overrunLag : Nat := 4096

/-- R72: the pause depth is at most 4. -/
def maxPauseDepth : Nat := 4

/-- R97: a good run is 1,024 consecutive in-tolerance intervals. -/
def goodRunLength : Nat := 1024

/-- R96: a loss is four nominal reference periods without an edge. -/
def lossPeriods : Nat := 4

/-- R202: the part number in IDENTITY (1640). -/
def partNumber : Half := 0x0668#16

/-- Section 11.2: the vendor code in IDENTITY. -/
def vendorCode : Byte := 0xB6#8

/-- Section 11.5: the format tag of an image header. -/
def imageTag : Word := 0x7E1640A5#32

/-- Section 11.5: the format version of an image header. -/
def imageVersion : Half := 1#16

/-- R199: IDENTITY returns the silicon revision, whose value the spec does not state. FREE VALUE (DESIGN CHOICE, assumption log 3). -/
opaque siliconRevision : Byte

/-- FREE VALUE (DESIGN CHOICE, assumption log 4). Where one claim does the same thing to several items and the spec gives them no order
(R179 and R185: the order in which the freed slots join the free list; R91: the order in which messages of several rings
that fall due at one tick are issued), the items are taken in the order of these keys. The first argument is the number of
the choice, counted in `State.choices`, so that every choice is free of every other one. -/
opaque choiceKey : Nat → Nat → Nat

end Sys2Proof.Config
end

