-- ==== Sys2Proof/Machine/State.lean ====
section
/-! DEFINITION. The state of the engine, as plain data: one structure per block of the spec's block overview (00_scope), each holding
what that block owns, and the machine right after reset. Ticks, counts, indices and slot numbers are `Nat`s with the bounds the spec
gives; what crosses the bus as bits is a bit vector. A field the spec calls absent is an `Option`, or, where the state of its record
already says that it is absent (a CLOSED ring, R133 and R151), holds 0 (DESIGN CHOICE, assumption log 14). -/

namespace Sys2Proof.Machine

/-! ### Timer Table (chapter 1) -/

/-- R2: where an entry in use stands in its life. FREE is not a constructor: a FREE slot has no entry at all (`TableRow.entry`). -/
inductive Phase where
  | armed | due | held | fired | tripped
deriving DecidableEq, Repr

/-- R2: how the Expiry Unit treats an entry that becomes due. -/
inductive TimerKind where
  | oneshot | periodic | guard
deriving DecidableEq, Repr

/-- R5: the record kind of a pending expiry. -/
inductive ExpiryKind where
  | expiry | guardTrip
deriving DecidableEq, Repr

/-- R5: one or more fires of an entry not yet taken for writing. -/
structure PendingExpiry where
  kind : ExpiryKind
  fireCount : Nat
  missedCount : Nat
  latestDeadline : Nat
  holdover : Bool
deriving DecidableEq, Repr

/-- R25: the wheel's location record of an entry it holds. -/
inductive Location where
  | slot (level : Fin 4) (index : Fin 64)
  | overflow
  | dueQueue
deriving DecidableEq, Repr

/-- R2: what a slot in use holds beside its number and generation, and the wheel's location record for it (R25). -/
structure Entry where
  phase : Phase
  kind : TimerKind
  domain : Fin 64
  ring : Fin 8
  deadline : Nat
  period : Option Nat
  fireLimit : Option Nat
  cookie : DWord
  faultOption : Bool
  totalFires : Nat
  pendingExpiry : Option PendingExpiry
  importMark : Bool
  location : Option Location
deriving DecidableEq, Repr

/-- R16: the record kept with a slot freed at take for writing: the previous generation, the entry as it stood before the free (phase
FIRED, with the pending expiry as it was taken), and the completion ring and ring slot of the write the mark belongs to. `write` is that
write's number, the model's own way to tell it from an earlier write to the same ring slot (DESIGN CHOICE, assumption log 23). -/
structure PostingMark where
  generation : Nat
  entry : Entry
  ring : Fin 8
  ringSlot : Nat
  write : Nat
deriving DecidableEq, Repr

/-- One slot of the Timer Table: FREE when `entry` is absent, and then perhaps marked (R16). -/
structure TableRow where
  generation : Nat
  entry : Option Entry
  mark : Option PostingMark
deriving DecidableEq, Repr

/-- R22: what every slot holds after a reset or a disable, and what a slot reads as that the table does not list. -/
def TableRow.fresh : TableRow := { generation := 1, entry := none, mark := none }

/-- R13: whose allocation claim waits for the head of the free list to lose its mark. -/
inductive Waiter where
  | arm | creation
deriving DecidableEq, Repr

/-- What the Timer Table owns. `rows` lists the slots that are not `TableRow.fresh`, slot numbers rising. -/
structure TimerTable where
  rows : List (Nat × TableRow)
  freeList : List Nat
  reservation : Nat
  waiting : List Waiter
deriving DecidableEq, Repr

/-- R22. -/
def TimerTable.reset : TimerTable :=
  { rows := [], freeList := List.range Config.tableSize, reservation := 0, waiting := [] }

/-- The canonical form of `rows`: slot numbers strictly rising, and no row that an unlisted slot would read as. -/
def TimerTable.wfRows : List (Nat × TableRow) → Bool
  | [] => true
  | [(_, r)] => decide (r ≠ TableRow.fresh)
  | (j, r) :: (k, r') :: rest => decide (r ≠ TableRow.fresh) && decide (j < k) && wfRows ((k, r') :: rest)

/-- The table's rows are in canonical form. -/
def TimerTable.wf (t : TimerTable) : Bool := TimerTable.wfRows t.rows

/-! ### Timing Wheel (chapter 2) -/

/-- R32, R33: a wheel step in progress. `sweepLeft` is how many entries at the front of the overflow list were placed there before the
step's sweep began and have not left it since. -/
structure WheelStep where
  sweepLeft : Nat
deriving DecidableEq, Repr

/-- What the Timing Wheel owns; `time` is wheel time W (R23). -/
structure Wheel where
  time : Nat
  slots : Vector (Vector (List Nat) 64) 4
  overflow : List Nat
  dueQueue : List Nat
  overrun : Bool
  step : Option WheelStep
deriving DecidableEq, Repr

/-- R47. -/
def Wheel.reset : Wheel :=
  { time := 0, slots := Vector.replicate 4 (Vector.replicate 64 []), overflow := [], dueQueue := [], overrun := false, step := none }

/-! ### Expiry Unit (chapter 3) -/

/-- What the Expiry Unit owns: the count of TRIPPED entries with the fault option (R65), which drives FAULT_OUT. -/
structure ExpiryUnit where
  faultTrips : Nat
deriving DecidableEq, Repr

/-- R71. -/
def ExpiryUnit.reset : ExpiryUnit := { faultTrips := 0 }

/-! ### Tickets: what a command's completion needs (R106, R137, R141) -/

/-- Which submission ring a command came from, which completion ring holds its reservation, and its tag. -/
structure Ticket where
  source : Fin 8
  ring : Fin 8
  tag : Half
deriving DecidableEq, Repr

/-! ### Domain Table (chapter 4) -/

/-- R73. -/
inductive DomainState where
  | free | running | paused | destroying
deriving DecidableEq, Repr

/-- R83. -/
inductive TransferBusy where
  | none | exporting | importing
deriving DecidableEq, Repr

/-- R85: a destroy walk, with the ticket of the DESTROY whose completion ends it (R88). -/
structure DestroyWalk where
  position : Nat
  walkCount : Nat
  discardCount : Nat
  ticket : Ticket
deriving DecidableEq, Repr

/-- R72. -/
structure Domain where
  state : DomainState
  pauseDepth : Nat
  quota : Option Nat
  inUse : Nat
  held : List Nat
  busy : TransferBusy
  pauseStart : Option Nat
  walk : Option DestroyWalk
deriving DecidableEq, Repr

/-- R90: a FREE record. -/
def Domain.reset : Domain :=
  { state := .free, pauseDepth := 0, quota := none, inUse := 0, held := [], busy := .none, pauseStart := none, walk := none }

/-! ### Timebase (chapter 5) -/

/-- R94. -/
inductive TimebaseState where
  | stopped | acquiring | locked | holdover | freeRunning
deriving DecidableEq, Repr

/-- R93. -/
inductive TickSource where
  | none | reference | internal
deriving DecidableEq, Repr

/-- What the Timebase owns. `time` is device time N. `measuredRatio` is the run length sum of the last completed good run; the ratio
itself is that sum divided by 1,024, "kept with its fraction" (R95), so every length compared with it is counted in 1/1,024 monitor
units. `equivalentStart` is the moment, in 1/1,024 monitor units, from which the edge equivalent in progress is reckoned; only HOLDOVER has one (R99; DEDUCED,
assumption log 10). Moments count from the last SET TIMEBASE, in monitor units where nothing else is said (DESIGN CHOICE, assumption log 9). -/
structure Timebase where
  time : Nat
  state : TimebaseState
  source : TickSource
  divisor : Option Nat
  nominal : Option Nat
  edgeCounter : Nat
  equivalentStart : Option Nat
  goodRunCount : Nat
  runLengthSum : Nat
  measuredRatio : Option Nat
  lastEdge : Option Nat
  lossWindowStart : Nat
  latch : Word
deriving DecidableEq, Repr

/-- R105. -/
def Timebase.reset : Timebase :=
  { time := 0, state := .stopped, source := .none, divisor := none, nominal := none, edgeCounter := 0, equivalentStart := none
    goodRunCount := 0, runLengthSum := 0, measuredRatio := none, lastEdge := none, lossWindowStart := 0, latch := 0#32 }

/-! ### Records that cross the bus (chapter 11) -/

/-- Section 11.6: the record kinds. -/
inductive RecordKind where
  | command | expiry | guardTrip | event
deriving DecidableEq, Repr

/-- Section 11.4: a completion record but for its phase bit, which the take for writing adds (R154). `status` is byte 0. -/
structure Completion where
  kind : RecordKind
  status : Byte
  flags : Half
  source : Byte
  tag : Half
  handle : Word
  count : Word
  wordA : DWord
  wordB : DWord
deriving DecidableEq, Repr

/-! ### Submission Fetcher (chapter 7) -/

/-- R133, R151: why a ring entered ERROR. -/
inductive ErrorCause where
  | none | busError | badIndex
deriving DecidableEq, Repr

/-- R134. -/
inductive SubmissionState where
  | closed | active | closing | error
deriving DecidableEq, Repr

/-- R133. -/
structure SubmissionRing where
  state : SubmissionState
  base : DWord
  size : Nat
  head : Nat
  tail : Nat
  paired : Fin 8
  weight : Nat
  cause : ErrorCause
deriving DecidableEq, Repr

/-- R146, R150: the record of a CLOSED ring. -/
def SubmissionRing.reset : SubmissionRing :=
  { state := .closed, base := 0#64, size := 0, head := 0, tail := 0, paired := 0, weight := 0, cause := .none }

/-- R140: what the fetcher notes with a fetch; and, for R141 and R142, whether its ring has become CLOSED since (DEDUCED, assumption log 31). -/
structure Fetch where
  source : Fin 8
  headSlot : Nat
  ring : Fin 8
  ringClosed : Bool := false
deriving DecidableEq, Repr

/-- R138. -/
inductive FetchPath where
  | idle
  | reading (fetch : Fetch)
  | delivered (fetch : Fetch)
deriving DecidableEq, Repr

/-- What the Submission Fetcher owns: the eight ring records, the path, the I/O grant holder and its used count (R139). `grantWeight` is the weight
that the holder had when it got the grant, since a ring opened again uses its new weight only from its next grant (R145). -/
structure Fetcher where
  rings : Vector SubmissionRing 8
  path : FetchPath
  grant : Option (Fin 8)
  used : Nat
  grantWeight : Nat
deriving DecidableEq, Repr

/-- R150. No ring holds the grant, and `grantWeight` is then 0 (DESIGN CHOICE, assumption log 32). -/
def Fetcher.reset : Fetcher :=
  { rings := Vector.replicate 8 SubmissionRing.reset, path := .idle, grant := none, used := 0, grantWeight := 0 }

/-! ### Command Executor (chapter 6) -/

/-- R106, R141: a record in the input place, with its source ring and the completion ring that holds its reservation. -/
structure Delivered where
  record : CommandBits
  source : Fin 8
  ring : Fin 8
deriving DecidableEq, Repr

/-- R106: a command that the executor has taken: its ticket, its record, and N as read at its take. -/
structure Taken where
  ticket : Ticket
  record : CommandBits
  takenAt : Nat
deriving DecidableEq, Repr

/-- R106: the executor's states: IDLE; EXECUTING a command whose claims are still to be made; WAITING with an ARM whose allocation claim waits. -/
inductive ExecutorState where
  | idle
  | executing (command : Taken)
  | waiting (arm : Taken)
deriving DecidableEq, Repr

/-- R106, R121: the completion of a CLOSE SUBMISSION RING that waits for `closing` to become CLOSED. -/
structure HeldCompletion where
  closing : Fin 8
  ring : Fin 8
  completion : Completion
deriving DecidableEq, Repr

/-- What the Command Executor owns. -/
structure Executor where
  state : ExecutorState
  input : Option Delivered
  held : Option HeldCompletion
deriving DecidableEq, Repr

/-- R106. -/
def Executor.reset : Executor := { state := .idle, input := none, held := none }

/-! ### Completion Poster (chapter 8) -/

/-- R152. -/
inductive CompletionState where
  | closed | active | error
deriving DecidableEq, Repr

/-- R151. -/
structure CompletionRing where
  state : CompletionState
  base : DWord
  size : Nat
  tail : Nat
  head : Nat
  phase : Bool
  unconsumed : Nat
  reserved : Nat
  bound : Nat
  deferred : List Nat
  restoredRun : Nat
  queue : List Completion
  messageAddress : DWord
  messageData : Word
  interrupts : Bool
  moderationCount : Nat
  moderationDelay : Nat
  unnotified : Nat
  delayCount : Option Nat
  cause : ErrorCause
deriving DecidableEq, Repr

/-- R173: the record of a CLOSED ring. -/
def CompletionRing.reset : CompletionRing :=
  { state := .closed, base := 0#64, size := 0, tail := 0, head := 0, phase := true, unconsumed := 0, reserved := 0, bound := 0
    deferred := [], restoredRun := 0, queue := [], messageAddress := 0#64, messageData := 0#32, interrupts := false
    moderationCount := 0, moderationDelay := 0, unnotified := 0, delayCount := none, cause := .none }

/-- R164. -/
inductive EventKind where
  | ringError | referenceLost | referenceRestored | wheelOverrun | wheelCaughtUp
deriving DecidableEq, Repr

/-- R164: what an event names as its source. -/
inductive EventSource where
  | submissionRing (ring : Fin 8)
  | completionRing (ring : Fin 8)
  | timebase
  | timingWheel
deriving DecidableEq, Repr

/-- R164: a member of the event set. -/
structure Event where
  kind : EventKind
  source : EventSource
  cause : ErrorCause
  occurrences : Nat
  raisedAt : Nat
deriving DecidableEq, Repr

/-- What the Completion Poster owns: the eight ring records and the event set, in the order of first raising. `writes`, the model's own,
counts the record writes issued, and numbers them (DESIGN CHOICE, assumption log 23). -/
structure Poster where
  rings : Vector CompletionRing 8
  events : List Event
  writes : Nat
deriving DecidableEq, Repr

/-- R173. -/
def Poster.reset : Poster := { rings := Vector.replicate 8 CompletionRing.reset, events := [], writes := 0 }

/-! ### Transfer Unit (chapter 9) -/

/-- R174: the stages of a job; the first two are an EXPORT's, the last two an IMPORT's. -/
inductive JobStage where
  | writing | releasing | verifying | creating
deriving DecidableEq, Repr

/-- R174: the two kinds of job. -/
inductive JobKind where
  | exportJob | importJob
deriving DecidableEq, Repr

/-- R174: a stage belongs to one kind. -/
def JobStage.kind : JobStage → JobKind
  | .writing | .releasing => .exportJob
  | .verifying | .creating => .importJob

/-- R174: the job record. The fields from `ticket` on are those the rules need beyond R174's table (DEDUCED, assumption log 20): the completion's
ticket (R110); the tick source code and divisor of the image's header, an EXPORT's own or as an IMPORT read them (R177, R181); whether
some record of pass 1 was not well formed (R180); how many records of pass 1 name each ring (R181); the ring holds, as how many records
not yet created name each ring (R182); and the record whose creation claim is under way (R183). -/
structure Job where
  stage : JobStage
  domain : Fin 64
  bufferAddress : DWord
  bufferLength : Nat
  handleAddress : DWord
  handleLength : Nat
  release : Bool
  exportStart : Nat
  recordCount : Nat
  position : Nat
  recordsDone : Nat
  runningSum : Word
  pass1Sum : Word
  ticket : Ticket
  imageSource : Byte
  imageDivisor : Word
  illFormed : Bool
  ringRecords : Vector Nat 8
  ringHolds : Vector Nat 8
  creation : Option RecordBits
deriving DecidableEq, Repr

/-- What the Transfer Unit owns: at most one job (R174). Its transfer in flight stands in the Host Port's list. -/
structure TransferUnit where
  job : Option Job
deriving DecidableEq, Repr

/-- R188. -/
def TransferUnit.reset : TransferUnit := { job := none }

/-! ### Host Port (chapter 10) -/

/-- R189. -/
inductive DeviceState where
  | disabled | ready | stopping | failed
deriving DecidableEq, Repr

/-- R189. -/
inductive ResetCause where
  | powerOn | deviceReset
deriving DecidableEq, Repr

/-- R189. -/
inductive FatalCause where
  | none | badAdminConfig | badAdminIndex | sr0ReadError | cr0WriteError
deriving DecidableEq, Repr

/-- R200, section 11.2: the admin configuration registers. -/
structure AdminRegisters where
  srBase : DWord
  srSize : Word
  crBase : DWord
  crSize : Word
  msgAddress : DWord
  msgData : Word
deriving DecidableEq, Repr

/-- R195: cleared by the power-on reset. -/
def AdminRegisters.reset : AdminRegisters :=
  { srBase := 0#64, srSize := 0#32, crBase := 0#64, crSize := 0#32, msgAddress := 0#64, msgData := 0#32 }

/-- What a record write carries, which decides what its end does (R161, R167). An expiry write keeps the slot, the generation and the
record's contents. -/
inductive RecordOrigin where
  | completion
  | event
  | expiry (slot : Nat) (generation : Nat) (contents : PendingExpiry)
deriving DecidableEq, Repr

/-- Which part of its job a transfer reads or writes (R177, R183). -/
inductive TransferItem where
  | header | entryRecord | trailer | handle
deriving DecidableEq, Repr

/-- R196: a DMA request in flight, by issuer. The Submission Fetcher's reads are 64 bytes; the Completion Poster's record writes 32, its
message writes 4; the Transfer Unit's are `length` bytes. A transfer whose job has ended is not `live`: its end is discarded (R175). -/
inductive DmaRequest where
  | fetchRead (source : Fin 8) (address : DWord)
  | recordWrite (ring : Fin 8) (ringSlot number : Nat) (address : DWord) (data : RecordBits) (origin : RecordOrigin)
  | messageWrite (ring : Fin 8) (address : DWord) (data : Word)
  | transferRead (live : Bool) (item : TransferItem) (address : DWord) (length : Nat)
  | transferWrite (live : Bool) (item : TransferItem) (address : DWord) (length : Nat) (data : RecordBits)
deriving DecidableEq, Repr

/-- What the Host Port owns: the device state, CONTROL.ENABLE, the two causes, the admin configuration registers and the DMA requests in
flight, in issue order (R189, R196). `readData` is the model's own: what the last read that covers DEVICE_TIME's low word returned (DESIGN CHOICE, assumption log 13). -/
structure HostPort where
  device : DeviceState
  enable : Bool
  resetCause : ResetCause
  fatalCause : FatalCause
  admin : AdminRegisters
  dma : List DmaRequest
  readData : RegisterData
deriving DecidableEq, Repr

/-- R189, R195: after a power-on reset. -/
def HostPort.reset : HostPort :=
  { device := .disabled, enable := false, resetCause := .powerOn, fatalCause := .none, admin := .reset, dma := [], readData := .words [] }

/-! ### The machine -/

/-- The engine: its ten blocks, and two fields of the model's own: `choices`, how many free orderings have been used up, and `pending`,
the commands that wait, first in, first out. -/
structure State where
  host : HostPort
  fetcher : Fetcher
  executor : Executor
  table : TimerTable
  wheel : Wheel
  expiry : ExpiryUnit
  domains : Vector Domain 64
  timebase : Timebase
  poster : Poster
  transfer : TransferUnit
  choices : Nat
  pending : List Instr
deriving DecidableEq, Repr

/-- The machine right after the power-on reset (R195, R22, R47, R71, R90, R105, R106, R150, R173, R188, R189). -/
def State.reset : State :=
  { host := .reset, fetcher := .reset, executor := .reset, table := .reset, wheel := .reset, expiry := .reset
    domains := Vector.replicate 64 Domain.reset, timebase := .reset, poster := .reset, transfer := .reset
    choices := 0, pending := [] }

/-- Why a step stops with a fault. There is no constructor: nothing the spec describes stops the engine. A refused command, a bus error, a
bad index and a fatal fault are all next states (R108, R142, R166, R187, R191). -/
inductive Fault where
deriving DecidableEq, Repr

/-- Why a step is refused. -/
inductive Refusal where
  /-- The command has no meaning in this model yet. Raised by an arm of `exec` only, and safe: nothing is claimed of the command.
  No arm raises it: every command has its meaning. -/
  | notModelled (mnemonic : String)
deriving DecidableEq, Repr

end Sys2Proof.Machine
end

