-- ==== Sys2Proof/Machine/Flags.lean ====
section
/-! DEFINITION. The codes and flag bits of chapter 11: status codes (section 11.7), enumerated encodings (section 11.6) and the flags of a
completion record (section 11.4). -/

namespace Sys2Proof.Machine

/-- Section 11.7: the status codes. -/
inductive Status where
  | success | withdrawn
  | invalidKind | invalidField | adminOnly
  | noSuchDomain | domainExists | domainBusy | domainNotPaused | domainNotEmpty | pauseLimit | notPaused | quotaExceeded
  | expiriesPending
  | noEntries | notFound | wrongKind | tooLate
  | noSuchRing | ringOpen | ringInUse | ringNotFailed
  | timebaseStopped | timersPresent
  | transferBusy | noTransfer | imageFormat | imageChecksum | imageMismatch | imageChanged | busError | aborted | bufferTooSmall
deriving DecidableEq, Repr

/-- Section 11.7. -/
def Status.code : Status → Byte
  | .success => 0x00#8
  | .withdrawn => 0x01#8
  | .invalidKind => 0x10#8
  | .invalidField => 0x11#8
  | .adminOnly => 0x12#8
  | .noSuchDomain => 0x20#8
  | .domainExists => 0x21#8
  | .domainBusy => 0x22#8
  | .domainNotPaused => 0x23#8
  | .domainNotEmpty => 0x24#8
  | .pauseLimit => 0x25#8
  | .notPaused => 0x26#8
  | .quotaExceeded => 0x27#8
  | .expiriesPending => 0x28#8
  | .noEntries => 0x30#8
  | .notFound => 0x31#8
  | .wrongKind => 0x32#8
  | .tooLate => 0x33#8
  | .noSuchRing => 0x40#8
  | .ringOpen => 0x41#8
  | .ringInUse => 0x42#8
  | .ringNotFailed => 0x43#8
  | .timebaseStopped => 0x50#8
  | .timersPresent => 0x51#8
  | .transferBusy => 0x60#8
  | .noTransfer => 0x61#8
  | .imageFormat => 0x62#8
  | .imageChecksum => 0x63#8
  | .imageMismatch => 0x64#8
  | .imageChanged => 0x65#8
  | .busError => 0x66#8
  | .aborted => 0x67#8
  | .bufferTooSmall => 0x68#8

/-- Section 11.6, timer kind. -/
def TimerKind.code : TimerKind → Nat
  | .oneshot => 0
  | .periodic => 1
  | .guard => 2

/-- Section 11.6, timer kind; no other code is assigned. -/
def TimerKind.ofCode (n : Nat) : Option TimerKind :=
  if n = 0 then some .oneshot else if n = 1 then some .periodic else if n = 2 then some .guard else none

/-- Section 11.6, entry phase; FREE, code 0, is the phase of a slot without an entry. -/
def Phase.code : Phase → Nat
  | .armed => 1
  | .due => 2
  | .held => 3
  | .fired => 4
  | .tripped => 5

/-- Section 11.6, tick source. -/
def TickSource.code : TickSource → Nat
  | .none => 0
  | .reference => 1
  | .internal => 2

/-- Section 11.6, tick source in a command: NONE is never accepted. -/
def TickSource.ofCode (n : Nat) : Option TickSource :=
  if n = 1 then some .reference else if n = 2 then some .internal else Option.none

/-- Section 11.6, record kind. -/
def RecordKind.code : RecordKind → Nat
  | .command => 0
  | .expiry => 1
  | .guardTrip => 2
  | .event => 3

/-- Section 11.6, event kind. -/
def EventKind.code : EventKind → Byte
  | .ringError => 0x80#8
  | .referenceLost => 0x81#8
  | .referenceRestored => 0x82#8
  | .wheelOverrun => 0x83#8
  | .wheelCaughtUp => 0x84#8

/-- Section 11.6, event source. -/
def EventSource.code : EventSource → Byte
  | .submissionRing r => BitVec.ofNat 8 r.val
  | .completionRing r => BitVec.ofNat 8 (0x10 + r.val)
  | .timebase => 0x20#8
  | .timingWheel => 0x21#8

/-- Section 11.6, event cause. -/
def ErrorCause.code : ErrorCause → Nat
  | .none => 0
  | .busError => 1
  | .badIndex => 2

/-- Section 11.6, timebase state. -/
def TimebaseState.code : TimebaseState → Nat
  | .stopped => 0
  | .acquiring => 1
  | .locked => 2
  | .holdover => 3
  | .freeRunning => 4

/-- Section 11.6, device state. -/
def DeviceState.code : DeviceState → Nat
  | .disabled => 0
  | .ready => 1
  | .stopping => 2
  | .failed => 3

/-- Section 11.6, fatal cause. -/
def FatalCause.code : FatalCause → Nat
  | .none => 0
  | .badAdminConfig => 1
  | .badAdminIndex => 2
  | .sr0ReadError => 3
  | .cr0WriteError => 4

/-- Section 11.6, reset cause. -/
def ResetCause.code : ResetCause → Nat
  | .powerOn => 0
  | .deviceReset => 1

/-- R5: the record kind that a pending expiry is written as. -/
def ExpiryKind.recordKind : ExpiryKind → RecordKind
  | .expiry => .expiry
  | .guardTrip => .guardTrip

/-! ### The flag bits of a completion record (section 11.4) -/

/-- The flag at bit `i`. -/
def flagBit (i : Nat) (b : Bool) : Half := if b then 1#16 <<< i else 0#16

/-- The code `n` at bits `i` and up. -/
def flagField (i n : Nat) : Half := BitVec.ofNat 16 n <<< i

/-- Bit 0, holdover. -/
def flagHoldover (b : Bool) : Half := flagBit 0 b

/-- Bit 1, was tripped. -/
def flagWasTripped (b : Bool) : Half := flagBit 1 b

/-- Bit 2, fault option. -/
def flagFaultOption (b : Bool) : Half := flagBit 2 b

/-- Bit 3, expiry pending. -/
def flagExpiryPending (b : Bool) : Half := flagBit 3 b

/-- Bits 4 to 6, entry phase. -/
def flagPhase (p : Phase) : Half := flagField 4 p.code

/-- Bits 7 to 8, timer kind. -/
def flagTimerKind (k : TimerKind) : Half := flagField 7 k.code

/-- Bits 9 to 11, timebase state. -/
def flagTimebase (t : TimebaseState) : Half := flagField 9 t.code

/-- Bit 12, overrun flag. -/
def flagOverrun (b : Bool) : Half := flagBit 12 b

/-- Bit 13, FAULT_OUT asserted. -/
def flagFaultOut (b : Bool) : Half := flagBit 13 b

/-- Bit 14, some submission ring in ERROR. -/
def flagSubmissionError (b : Bool) : Half := flagBit 14 b

/-- Bit 15, some completion ring in ERROR. -/
def flagCompletionError (b : Bool) : Half := flagBit 15 b

/-- R118: the flags of a QUERY completion. -/
def queryFlags (e : Entry) : Half :=
  flagPhase e.phase ||| flagTimerKind e.kind ||| flagExpiryPending e.pendingExpiry.isSome ||| flagFaultOption e.faultOption

end Sys2Proof.Machine
end

