-- ==== Sys2Proof/Machine/Operands.lean ====
section
/-! DEFINITION. The operands of the command kinds: the fields of a 64-byte command record (section 11.3) and the field checks that each
command's entry makes of them (R108, check 3). A field check looks only at the record and at N as read at the take. -/

namespace Sys2Proof.Machine

/-- The little-endian field of `size` bytes at byte `offset` of a command record (R202). -/
def fieldAt (r : CommandBits) (offset size : Nat) : BitVec (8 * size) := r.extractLsb' (8 * offset) (8 * size)

/-! ### Section 11.3, field by field -/

/-- Byte 0. -/
def recKind (r : CommandBits) : Byte := fieldAt r 0 1

/-- Byte 1: ARM's timer kind, SET TIMEBASE's tick source. -/
def recTimerKind (r : CommandBits) : Byte := fieldAt r 1 1

/-- Bytes 2 to 3. -/
def recFlags (r : CommandBits) : Half := fieldAt r 2 2

/-- Flags bits 0 to 1, time mode. -/
def recTimeMode (r : CommandBits) : Nat := (recFlags r).toNat % 4

/-- Flags bit 2, force. -/
def recForce (r : CommandBits) : Bool := (recFlags r).getLsbD 2

/-- Flags bit 3, release. -/
def recRelease (r : CommandBits) : Bool := (recFlags r).getLsbD 3

/-- Flags bit 4, fault option. -/
def recFaultOption (r : CommandBits) : Bool := (recFlags r).getLsbD 4

/-- Flags bit 5, interrupts enabled. -/
def recInterrupts (r : CommandBits) : Bool := (recFlags r).getLsbD 5

/-- Bytes 4 to 5. -/
def recTag (r : CommandBits) : Half := fieldAt r 4 2

/-- Byte 6, domain. -/
def recDomain (r : CommandBits) : Nat := (fieldAt r 6 1).toNat

/-- Byte 7, ring id. -/
def recRing (r : CommandBits) : Nat := (fieldAt r 7 1).toNat

/-- Byte 8: OPEN SUBMISSION RING's paired ring, ARM's completion ring. -/
def recPaired (r : CommandBits) : Nat := (fieldAt r 8 1).toNat

/-- Byte 9, weight. -/
def recWeight (r : CommandBits) : Nat := (fieldAt r 9 1).toNat

/-- Byte 10, moderation count. -/
def recModerationCount (r : CommandBits) : Nat := (fieldAt r 10 1).toNat

/-- Bytes 12 to 15, handle. -/
def recHandle (r : CommandBits) : Word := fieldAt r 12 4

/-- Bytes 16 to 23, time value. -/
def recTime (r : CommandBits) : Nat := (fieldAt r 16 8).toNat

/-- Bytes 24 to 31, cookie. -/
def recCookie (r : CommandBits) : DWord := fieldAt r 24 8

/-- Bytes 32 to 35, period. -/
def recPeriod (r : CommandBits) : Nat := (fieldAt r 32 4).toNat

/-- Bytes 36 to 37, fire limit. -/
def recFireLimit (r : CommandBits) : Nat := (fieldAt r 36 2).toNat

/-- Bytes 38 to 39, moderation delay. -/
def recModerationDelay (r : CommandBits) : Nat := (fieldAt r 38 2).toNat

/-- Bytes 40 to 47, address A. -/
def recAddressA (r : CommandBits) : DWord := fieldAt r 40 8

/-- Bytes 48 to 55, address B. -/
def recAddressB (r : CommandBits) : DWord := fieldAt r 48 8

/-- Bytes 56 to 59, length A. -/
def recLengthA (r : CommandBits) : Nat := (fieldAt r 56 4).toNat

/-- Bytes 60 to 63, length B. -/
def recLengthB (r : CommandBits) : Word := fieldAt r 60 4

/-! ### Command kinds -/

/-- R107: the nineteen command kinds. -/
inductive CommandKind where
  | arm | rearm | cancel | kick | query | readStatus
  | openSubmissionRing | closeSubmissionRing | openCompletionRing | closeCompletionRing | restartCompletionRing
  | setTimebase
  | createDomain | destroyDomain | pauseDomain | resumeDomain
  | exportDomain | importDomain | abortTransfer
deriving DecidableEq, Repr

/-- Section 11.6, command kind. -/
def CommandKind.code : CommandKind → Byte
  | .arm => 0x01#8
  | .rearm => 0x02#8
  | .cancel => 0x03#8
  | .kick => 0x04#8
  | .query => 0x05#8
  | .readStatus => 0x06#8
  | .openSubmissionRing => 0x10#8
  | .closeSubmissionRing => 0x11#8
  | .openCompletionRing => 0x12#8
  | .closeCompletionRing => 0x13#8
  | .restartCompletionRing => 0x14#8
  | .setTimebase => 0x18#8
  | .createDomain => 0x20#8
  | .destroyDomain => 0x21#8
  | .pauseDomain => 0x22#8
  | .resumeDomain => 0x23#8
  | .exportDomain => 0x28#8
  | .importDomain => 0x29#8
  | .abortTransfer => 0x2A#8

/-- The nineteen kinds, in the order of R107's table. -/
def commandKinds : List CommandKind :=
  [.arm, .rearm, .cancel, .kick, .query, .readStatus, .openSubmissionRing, .closeSubmissionRing, .openCompletionRing,
   .closeCompletionRing, .restartCompletionRing, .setTimebase, .createDomain, .destroyDomain, .pauseDomain, .resumeDomain,
   .exportDomain, .importDomain, .abortTransfer]

/-- R107: the kind that a record's kind byte spells, if it is one of the nineteen. -/
def kindOf (r : CommandBits) : Option CommandKind := commandKinds.find? (fun k => k.code == recKind r)

/-- R107: the thirteen kinds carried on SR0 only. -/
def CommandKind.adminOnly : CommandKind → Bool
  | .arm | .rearm | .cancel | .kick | .query | .readStatus => false
  | .openSubmissionRing | .closeSubmissionRing | .openCompletionRing | .closeCompletionRing | .restartCompletionRing
  | .setTimebase | .createDomain | .destroyDomain | .pauseDomain | .resumeDomain
  | .exportDomain | .importDomain | .abortTransfer => true

/-- R108: the kinds whose command names a handle (section 11.3), and so whose refusal carries the handle field. -/
def CommandKind.namesHandle : CommandKind → Bool
  | .rearm | .cancel | .kick | .query => true
  | .arm | .readStatus
  | .openSubmissionRing | .closeSubmissionRing | .openCompletionRing | .closeCompletionRing | .restartCompletionRing
  | .setTimebase | .createDomain | .destroyDomain | .pauseDomain | .resumeDomain
  | .exportDomain | .importDomain | .abortTransfer => false

/-- The kinds whose take and claim are one step, so that N at the take is N at the claim. Of KICK, "the entry always becomes ARMED" (R69, R117), which
holds while W has not passed N at the take. Of PAUSE DOMAIN, the pause start is N "when the pause depth last went from 0 to 1" (R72) and "N at the take"
(R77). Of RESUME DOMAIN, whose pause ends when the depth becomes 0 and lasts until "N at the take" (R81, R129). Of READ STATUS, what it reports stands so "when the
command is taken" (R12, R23, R94, R104) and "when the claim is taken" (R119) (DEDUCED, assumption log 6). -/
def CommandKind.atOnce : CommandKind → Bool
  | .kick | .readStatus | .pauseDomain | .resumeDomain => true
  | .arm | .rearm | .cancel | .query
  | .openSubmissionRing | .closeSubmissionRing | .openCompletionRing | .closeCompletionRing | .restartCompletionRing
  | .setTimebase | .createDomain | .destroyDomain
  | .exportDomain | .importDomain | .abortTransfer => false

/-! ### Handles (R19, R202) -/

/-- Bits 0 to 15 of a handle. -/
def handleSlot (h : Word) : Nat := h.toNat % 65536

/-- Bits 16 to 23 of a handle. -/
def handleGeneration (h : Word) : Nat := h.toNat / 65536 % 256

/-- A handle as the engine writes it: bits 24 to 31 are 0. -/
def handleOf (slot generation : Nat) : Word := 0#8 ++ BitVec.ofNat 8 generation ++ BitVec.ofNat 16 slot

/-- The command's handle as its completion carries it: the slot and generation fields copied, bits 24 to 31 written 0 (R202). -/
def echoHandle (h : Word) : Word := h &&& 0x00FFFFFF#32

/-- R19: a slot above 16,383 or a generation of 0. -/
def badHandle (h : Word) : Bool := decide (Config.tableSize ≤ handleSlot h) || handleGeneration h == 0

/-! ### Times (R112) -/

/-- R112: the deadline that a time mode and value give; N is as read at the take. -/
def commandDeadline (r : CommandBits) (now : Nat) : Nat :=
  if recTimeMode r = 1 then now + recTime r else recTime r

/-- R112, R113: a time mode other than ABSOLUTE or RELATIVE, or a RELATIVE time whose deadline would pass 2^64 − 1. -/
def badTime (r : CommandBits) (now : Nat) : Bool :=
  decide (1 < recTimeMode r) || decide (Config.maxTick < commandDeadline r now)

/-! ### Ranges that several commands check -/

/-- R120, R122, R190: the ring sizes, the powers of two from 16 to 4,096. -/
def ringSizes : List Nat := [16, 32, 64, 128, 256, 512, 1024, 2048, 4096]

/-- A size that is no ring size. -/
def badSize (n : Nat) : Bool := !ringSizes.contains n

/-- An address that is not a multiple of `k`. -/
def misaligned (a : DWord) (k : Nat) : Bool := a.toNat % k != 0

/-- A ring number outside 1 to 7. -/
def badIoRing (n : Nat) : Bool := decide (n < 1) || decide (7 < n)

/-- R113 (R4): the period, fire limit and fault option do not fit the kind. -/
def misfit (k : TimerKind) (period fireLimit : Nat) (fault : Bool) : Bool :=
  match k with
  | .oneshot => period != 0 || fireLimit != 0 || fault
  | .periodic => period == 0 || fault
  | .guard => period == 0 || fireLimit != 0

/-! ### The field checks, command by command: true when the command is refused INVALID_FIELD -/

/-- R113. -/
def armFieldsBad (r : CommandBits) (now : Nat) : Bool :=
  decide (63 < recDomain r) || badTime r now || badIoRing (recPaired r) ||
    match TimerKind.ofCode (recTimerKind r).toNat with
    | none => true
    | some k => misfit k (recPeriod r) (recFireLimit r) (recFaultOption r)

/-- R115. -/
def rearmFieldsBad (r : CommandBits) (now : Nat) : Bool := badHandle (recHandle r) || badTime r now

/-- R116, R117, R118. -/
def handleFieldsBad (r : CommandBits) : Bool := badHandle (recHandle r)

/-- R120. -/
def openSubmissionFieldsBad (r : CommandBits) : Bool :=
  badIoRing (recRing r) || misaligned (recAddressA r) 64 || badSize (recLengthA r) || badIoRing (recPaired r) ||
    decide (recWeight r < 1) || decide (16 < recWeight r)

/-- R121, R123. -/
def closeRingFieldsBad (r : CommandBits) : Bool := badIoRing (recRing r)

/-- R122. -/
def openCompletionFieldsBad (r : CommandBits) : Bool :=
  badIoRing (recRing r) || misaligned (recAddressA r) 64 || badSize (recLengthA r) || misaligned (recAddressB r) 4 ||
    decide (recModerationCount r < 1) || decide (1023 < recModerationDelay r)

/-- R124: a base of 0 keeps the ring's present base, and is a multiple of 64. -/
def restartFieldsBad (r : CommandBits) : Bool := decide (7 < recRing r) || misaligned (recAddressA r) 64

/-- R93, R125. -/
def setTimebaseFieldsBad (r : CommandBits) : Bool :=
  decide (recLengthA r < 1) || decide (1048576 < recLengthA r) ||
    match TickSource.ofCode (recTimerKind r).toNat with
    | some .reference => decide ((recLengthB r).toNat < 32)
    | some .internal => false
    | _ => true

/-- R126: the quota is length A. -/
def createFieldsBad (r : CommandBits) : Bool :=
  decide (63 < recDomain r) || decide (recLengthA r < 1) || decide (16384 < recLengthA r)

/-- R127, R128, R129. -/
def domainFieldsBad (r : CommandBits) : Bool := decide (63 < recDomain r)

/-- R130. -/
def exportFieldsBad (r : CommandBits) : Bool := decide (63 < recDomain r) || misaligned (recAddressA r) 8

/-- R131. -/
def importFieldsBad (r : CommandBits) : Bool :=
  decide (63 < recDomain r) || misaligned (recAddressA r) 8 || decide (recLengthA r < 40) || misaligned (recAddressB r) 4

/-! ### The order of checks -/

/-- R108: "The first check that fails decides the answer". Each check is whether it fails, with the status it then gives. -/
def firstFailure : List (Bool × Status) → Option Status
  | [] => none
  | (fails, status) :: rest => if fails then some status else firstFailure rest

end Sys2Proof.Machine
end

