-- ==== Sys2Proof/Machine/Ops.lean ====
section
/-! DEFINITION. The named operations over the blocks' state that the meanings share: rows of the Timer Table, records of the Domain Table and
of the rings, the wheel's places, the Host Port's requests, the event set, the take for writing, and the freeing of entries. -/

namespace Sys2Proof.Machine

/-- The vector with element `i` replaced by `f` of it. -/
def updateAt {α : Type} {n : Nat} (v : Vector α n) (i : Fin n) (f : α → α) : Vector α n := v.set i.val (f v[i]) i.isLt

/-- A count that saturates: `n`, or `limit` when `n` is above it. -/
def saturate (limit n : Nat) : Nat := min n limit

/-! ### Rows of the Timer Table -/

/-- The row of slot `k`; a slot that is not listed is fresh (R22). -/
def lookupRow : List (Nat × TableRow) → Nat → TableRow
  | [], _ => TableRow.fresh
  | (j, r) :: rest, k => if j = k then r else lookupRow rest k

/-- `(k, r)` put in before the first slot above `k`. -/
def insertRow : List (Nat × TableRow) → Nat → TableRow → List (Nat × TableRow)
  | [], k, r => [(k, r)]
  | (j, q) :: rest, k, r => if k < j then (k, r) :: (j, q) :: rest else (j, q) :: insertRow rest k r

/-- The rows with slot `k` holding `r`; a fresh row is not listed. -/
def storeRow (rows : List (Nat × TableRow)) (k : Nat) (r : TableRow) : List (Nat × TableRow) :=
  if r = TableRow.fresh then rows.filter (fun p => p.1 != k) else insertRow (rows.filter (fun p => p.1 != k)) k r

/-- The row of a slot. -/
def State.rowAt (s : State) (k : Nat) : TableRow := lookupRow s.table.rows k

/-- The entry of a slot; absent when the slot is FREE (R2). -/
def State.entryAt (s : State) (k : Nat) : Option Entry := (s.rowAt k).entry

/-- The posting mark of a slot (R16). -/
def State.markAt (s : State) (k : Nat) : Option PostingMark := (s.rowAt k).mark

/-- The present generation of a slot (R2). -/
def State.generationAt (s : State) (k : Nat) : Nat := (s.rowAt k).generation

/-- Slot `k` holds `r`. -/
def State.setRow (s : State) (k : Nat) (r : TableRow) : State :=
  { s with table := { s.table with rows := storeRow s.table.rows k r } }

/-- Slot `k`'s entry is `e`; its generation and mark stay. -/
def State.setEntry (s : State) (k : Nat) (e : Entry) : State := s.setRow k { s.rowAt k with entry := some e }

/-- Every entry in use, with its slot, in slot order. -/
def State.entries (s : State) : List (Nat × Entry) :=
  s.table.rows.filterMap (fun p => p.2.entry.map (fun e => (p.1, e)))

/-- Every posting mark, with its slot. -/
def State.marks (s : State) : List (Nat × PostingMark) :=
  s.table.rows.filterMap (fun p => p.2.mark.map (fun m => (p.1, m)))

/-- R16: how many marked slots name the domain. -/
def State.marksNaming (s : State) (d : Fin 64) : Nat := (s.marks.filter (fun p => p.2.entry.domain == d)).length

/-- R13: the free-list length that the NO_ENTRIES tests use, which counts only slots without a posting mark. -/
def State.unmarkedFree (s : State) : Nat := (s.table.freeList.filter (fun k => (s.markAt k).isNone)).length

/-- R13: the slot at the head of the free list carries a posting mark. -/
def State.headMarked (s : State) : Bool :=
  match s.table.freeList with
  | [] => false
  | k :: _ => (s.markAt k).isSome

/-- R14: "The generation advances by one, from 255 to 1." -/
def nextGeneration (g : Nat) : Nat := if 255 ≤ g then 1 else g + 1

/-- R19: the entry that a handle matches, if it matches one. -/
def State.matchHandle (s : State) (h : Word) : Option Entry :=
  if s.generationAt (handleSlot h) = handleGeneration h then s.entryAt (handleSlot h) else none

/-- The rows with `f` applied to each, fresh ones left out. -/
def mapRows (f : TableRow → TableRow) (rows : List (Nat × TableRow)) : List (Nat × TableRow) :=
  (rows.map (fun p => (p.1, f p.2))).filter (fun p => p.2 != TableRow.fresh)

/-! ### Records of the Domain Table and of the rings -/

/-- Domain record `d`. -/
def State.domain (s : State) (d : Fin 64) : Domain := s.domains[d]

/-- Domain record `d` changed by `f`. -/
def State.updateDomain (s : State) (d : Fin 64) (f : Domain → Domain) : State := { s with domains := updateAt s.domains d f }

/-- R82: DESTROYING, or held by a transfer job. -/
def Domain.isBusy (d : Domain) : Bool := d.state == .destroying || d.busy != .none

/-- Submission ring record `i`. -/
def State.sr (s : State) (i : Fin 8) : SubmissionRing := s.fetcher.rings[i]

/-- Submission ring record `i` changed by `f`. -/
def State.updateSr (s : State) (i : Fin 8) (f : SubmissionRing → SubmissionRing) : State :=
  { s with fetcher := { s.fetcher with rings := updateAt s.fetcher.rings i f } }

/-- Completion ring record `c`. -/
def State.cr (s : State) (c : Fin 8) : CompletionRing := s.poster.rings[c]

/-- Completion ring record `c` changed by `f`. -/
def State.updateCr (s : State) (c : Fin 8) (f : CompletionRing → CompletionRing) : State :=
  { s with poster := { s.poster with rings := updateAt s.poster.rings c f } }

/-- R153: the free space of an open ring. -/
def CompletionRing.freeSpace (r : CompletionRing) : Nat := r.size - 1 - r.unconsumed - r.reserved

/-- READY, the only device state in which new work begins (R191). -/
def State.ready (s : State) : Bool := s.host.device == .ready

/-! ### The Host Port -/

/-- R196: a request joins those in flight, behind those issued before it. -/
def State.pushDma (s : State) (q : DmaRequest) : State := { s with host := { s.host with dma := s.host.dma ++ [q] } }

/-- The requests in flight without the oldest one of those that `p` selects. -/
def State.endDma (s : State) (p : DmaRequest → Bool) : State := { s with host := { s.host with dma := s.host.dma.eraseP p } }

/-- A record or message write of the Completion Poster. -/
def DmaRequest.ofPoster : DmaRequest → Bool
  | .recordWrite .. | .messageWrite .. => true
  | _ => false

/-- A write of the Completion Poster to ring `c`. -/
def DmaRequest.toRing (c : Fin 8) : DmaRequest → Bool
  | .recordWrite c' .. | .messageWrite c' .. => c' == c
  | _ => false

/-- A read of the Submission Fetcher. -/
def DmaRequest.ofFetcher : DmaRequest → Bool
  | .fetchRead .. => true
  | _ => false

/-- A read of the Transfer Unit. -/
def DmaRequest.isTransferRead : DmaRequest → Bool
  | .transferRead .. => true
  | _ => false

/-- A write of the Transfer Unit. -/
def DmaRequest.isTransferWrite : DmaRequest → Bool
  | .transferWrite .. => true
  | _ => false

/-- A transfer of the Transfer Unit. -/
def DmaRequest.ofTransfer (q : DmaRequest) : Bool := q.isTransferRead || q.isTransferWrite

/-- R191: a fatal fault makes a READY device FAILED with its cause; a fault that finds the device not READY is discarded. -/
def State.fatal (s : State) (cause : FatalCause) : State :=
  if s.ready then { s with host := { s.host with device := .failed, fatalCause := cause } } else s

/-! ### The event set -/

/-- R164: a raising with this kind and source is counted into the member that has them. -/
def countEvent (k : EventKind) (src : EventSource) : List Event → List Event
  | [] => []
  | e :: rest =>
    if e.kind = k ∧ e.source = src then { e with occurrences := saturate Config.maxCount16 (e.occurrences + 1) } :: rest
    else e :: countEvent k src rest

/-- R164: an event is raised into the event set. -/
def State.raise (s : State) (k : EventKind) (src : EventSource) (cause : ErrorCause) : State :=
  let events :=
    if s.poster.events.any (fun e => e.kind == k && e.source == src) then countEvent k src s.poster.events
    else s.poster.events ++ [{ kind := k, source := src, cause := cause, occurrences := 1, raisedAt := s.timebase.time }]
  { s with poster := { s.poster with events := events } }

/-- R66, R201: FAULT_OUT is asserted while the fault-trip count is above 0. -/
def State.faultOut (s : State) : Bool := decide (0 < s.expiry.faultTrips)

/-! ### Free orderings -/

/-- The items in the order of the keys of choice `n` (DESIGN CHOICE, assumption log 4). -/
def freeOrder (n : Nat) (items : List Nat) : List Nat :=
  items.insertionSort (fun a b => Config.choiceKey n a ≤ Config.choiceKey n b)

/-- One claim acts on all the items, in an order the spec leaves open; fewer than two items leave nothing open. -/
def State.forEach (s : State) (items : List Nat) (act : Nat → State → State) : State :=
  if items.length < 2 then items.foldl (fun s k => act k s) s
  else (freeOrder s.choices items).foldl (fun s k => act k s) { s with choices := s.choices + 1 }

/-! ### Placement and removal (chapter 2) -/

/-- R25: digit L of a tick value. -/
def digit (level t : Nat) : Fin 64 := Fin.ofNat 64 (t / 64 ^ level)

/-- R25: two tick values agree above digit L. -/
def agreeAbove (level t u : Nat) : Bool := t / 64 ^ (level + 1) == u / 64 ^ (level + 1)

/-- R28: where a deadline goes against wheel time `w`. -/
def placement (w deadline : Nat) : Location :=
  if deadline ≤ w then .dueQueue
  else if agreeAbove 0 deadline w then .slot 0 (digit 0 deadline)
  else if agreeAbove 1 deadline w then .slot 1 (digit 1 deadline)
  else if agreeAbove 2 deadline w then .slot 2 (digit 2 deadline)
  else if agreeAbove 3 deadline w then .slot 3 (digit 3 deadline)
  else .overflow

/-- The FIFO of wheel slot `i` of level `l`. -/
def State.wheelSlot (s : State) (l : Fin 4) (i : Fin 64) : List Nat := s.wheel.slots[l][i]

/-- Wheel slot `i` of level `l` changed by `f`. -/
def Wheel.updateSlot (w : Wheel) (l : Fin 4) (i : Fin 64) (f : List Nat → List Nat) : Wheel :=
  { w with slots := updateAt w.slots l (fun v => updateAt v i f) }

/-- Slot number `k` joins a place of the wheel at its tail. -/
def Wheel.append (w : Wheel) (k : Nat) : Location → Wheel
  | .slot l i => w.updateSlot l i (· ++ [k])
  | .overflow => { w with overflow := w.overflow ++ [k] }
  | .dueQueue => { w with dueQueue := w.dueQueue ++ [k] }

/-- R33: an entry of the run still to be swept leaves the overflow list, so the run is one shorter. -/
def Wheel.leaveSweep (w : Wheel) (k : Nat) : Option WheelStep :=
  w.step.map (fun p => if (w.overflow.take p.sweepLeft).contains k then { p with sweepLeft := p.sweepLeft - 1 } else p)

/-- R31: slot number `k` leaves a place of the wheel; the others keep their order. -/
def Wheel.remove (w : Wheel) (k : Nat) : Location → Wheel
  | .slot l i => w.updateSlot l i (·.filter (· != k))
  | .overflow => { w with overflow := w.overflow.filter (· != k), step := w.leaveSweep k }
  | .dueQueue => { w with dueQueue := w.dueQueue.filter (· != k) }

/-- R31: the entry leaves the place its location record or its phase names: a wheel slot, the overflow list, the due queue, or its domain's
held list. A FIRED or TRIPPED entry is in none. -/
def State.leavePlace (s : State) (k : Nat) (e : Entry) : State :=
  let s := match e.location with
    | some l => { s with wheel := s.wheel.remove k l }
    | none => s
  if e.phase = .held then s.updateDomain e.domain (fun d => { d with held := d.held.filter (· != k) }) else s

/-- R28: a placement claim puts slot `k`, whose entry is to be `e`, into the wheel by `e`'s deadline against W; the phase and the location
record are set in the same claim. -/
def State.place (s : State) (k : Nat) (e : Entry) : State :=
  let l := placement s.wheel.time e.deadline
  let s := s.setEntry k { e with phase := if l = .dueQueue then .due else .armed, location := some l }
  { s with wheel := s.wheel.append k l }

/-! ### Counts that follow an entry (R15, R65) -/

/-- R65: `e`, as it stood, leaves TRIPPED, by being placed again or freed. -/
def State.uncountTrip (s : State) (e : Entry) : State :=
  if e.phase = .tripped ∧ e.faultOption then { s with expiry := { faultTrips := s.expiry.faultTrips - 1 } } else s

/-- R15, the free column: the domain's in-use count and the ring's bound count fall by one, and so does the fault-trip count for a TRIPPED
entry with the fault option. -/
def State.uncount (s : State) (e : Entry) : State :=
  let s := s.updateDomain e.domain (fun d => { d with inUse := d.inUse - 1 })
  let s := s.updateCr e.ring (fun r => { r with bound := r.bound - 1 })
  s.uncountTrip e

/-- R65: an entry with the fault option has become TRIPPED. -/
def State.countTrip (s : State) (fault : Bool) : State :=
  if fault then { s with expiry := { faultTrips := s.expiry.faultTrips + 1 } } else s

/-! ### Deferred lists -/

/-- R158, R160: an entry leaves a ring's deferred list from its position; one of the restored run makes the run one shorter. -/
def CompletionRing.undefer (r : CompletionRing) (k : Nat) : CompletionRing :=
  { r with
    deferred := r.deferred.filter (· != k)
    restoredRun := if (r.deferred.take r.restoredRun).contains k then r.restoredRun - 1 else r.restoredRun }

/-- R167: an entry is restored to the front of the deferred list, behind the entries restored before it; one that lies within the restored
run already stays where it is. -/
def CompletionRing.restoreFront (r : CompletionRing) (k : Nat) : CompletionRing :=
  if (r.deferred.take r.restoredRun).contains k then r
  else
    let others := r.deferred.filter (· != k)
    { r with deferred := others.take r.restoredRun ++ k :: others.drop r.restoredRun, restoredRun := r.restoredRun + 1 }

/-! ### Freeing (R14) -/

/-- R14: the entry of slot `k` is freed. It leaves its place, a pending expiry is withdrawn from its ring's deferred list (R160), the counts
that follow it fall, its generation advances, every other field is cleared, and the slot joins the free list at the tail. A FREE slot is
left as it is. -/
def State.freeEntry (s : State) (k : Nat) : State :=
  match s.entryAt k with
  | none => s
  | some e =>
    let g := s.generationAt k
    let s := s.leavePlace k e
    let s := if e.pendingExpiry.isSome then s.updateCr e.ring (·.undefer k) else s
    let s := s.uncount e
    let s := s.setRow k { generation := nextGeneration g, entry := none, mark := none }
    { s with table := { s.table with freeList := s.table.freeList ++ [k] } }

/-- One claim frees the entries of all these slots; the spec gives their frees no order. -/
def State.freeAll (s : State) (slots : List Nat) : State := s.forEach slots (fun k s => s.freeEntry k)

/-- R18: every posting mark that names the domain is removed. -/
def State.removeMarks (s : State) (d : Fin 64) : State :=
  let unmark (r : TableRow) : TableRow := if r.mark.any (fun m => m.entry.domain == d) then { r with mark := none } else r
  { s with table := { s.table with rows := mapRows unmark s.table.rows } }

/-! ### Taking for writing (chapter 8) -/

/-- Section 11.4: the 32 bytes of a completion record; the phase is bit 7 of byte 1, byte 5 is reserved and 0 (R203). -/
def Completion.encode (c : Completion) (phase : Bool) : RecordBits :=
  c.wordB ++ c.wordA ++ c.count ++ c.handle ++ c.tag ++ 0#8 ++ c.source ++ c.flags ++
    (BitVec.ofBool phase ++ 0#5 ++ BitVec.ofNat 2 c.kind.code) ++ c.status

/-- R163: the ring's interrupt message is issued, and the counts start over (R162). -/
def State.sendMessage (s : State) (c : Fin 8) : State :=
  let s := s.pushDma (.messageWrite c (s.cr c).messageAddress (s.cr c).messageData)
  s.updateCr c (fun r => { r with unnotified := 0, delayCount := none })

/-- R162, count trigger: the unnotified count has reached the moderation count. -/
def CompletionRing.countDue (r : CompletionRing) : Bool :=
  r.interrupts && decide (0 < r.unnotified) && decide (r.moderationCount ≤ r.unnotified)

/-- R162, delay trigger: the moderation delay is above 0 and the delay count has reached it. -/
def CompletionRing.delayDue (r : CompletionRing) : Bool :=
  r.interrupts && decide (0 < r.moderationDelay) && r.delayCount.any (fun k => decide (r.moderationDelay ≤ k))

/-- R162: the take of one record is counted, the first one starting the delay count. -/
def CompletionRing.notify (r : CompletionRing) : CompletionRing :=
  if r.interrupts then
    { r with
      unnotified := r.unnotified + 1
      delayCount := if r.unnotified = 0 ∧ 0 < r.moderationDelay then some 0 else r.delayCount }
  else r

/-- R154, steps 1 to 5: the ring record after one record is taken for writing; `reserve` says that it uses a reserved slot. -/
def CompletionRing.advance (r : CompletionRing) (reserve : Bool) : CompletionRing :=
  { r with
    tail := if r.size ≤ r.tail + 1 then 0 else r.tail + 1
    phase := if r.size ≤ r.tail + 1 then !r.phase else r.phase
    unconsumed := r.unconsumed + 1
    reserved := if reserve then r.reserved - 1 else r.reserved }

/-- R154: one record is committed to the slot at ring `c`'s tail and its write is issued; a message that falls due is sent in the same claim
(R162). -/
def State.takeForWriting (s : State) (c : Fin 8) (reserve : Bool) (record : Completion) (origin : RecordOrigin) : State :=
  let r := s.cr c
  let s := s.pushDma (.recordWrite c r.tail s.poster.writes (r.base + BitVec.ofNat 64 (32 * r.tail)) (record.encode r.phase) origin)
  let s : State := { s with poster := { s.poster with writes := s.poster.writes + 1 } }
  let s := s.updateCr c (fun r => (r.advance reserve).notify)
  if (s.cr c).countDue then s.sendMessage c else s

/-- R156, R171: a command completion is handed to ring `c`. It is taken for writing with its reservation; while the ring is in ERROR, or the
device not READY, it joins the completion queue instead. -/
def State.handCompletion (s : State) (c : Fin 8) (record : Completion) : State :=
  if s.ready ∧ (s.cr c).state = .active then s.takeForWriting c true record .completion
  else s.updateCr c (fun r => { r with queue := r.queue ++ [record] })

/-- R161: the completion record of an entry's pending expiry. -/
def expiryRecord (k generation : Nat) (e : Entry) (p : PendingExpiry) : Completion :=
  { kind := p.kind.recordKind, status := 0#8
    flags := flagHoldover p.holdover ||| flagFaultOption e.faultOption
    source := 0#8, tag := BitVec.ofNat 16 p.fireCount, handle := handleOf k generation
    count := BitVec.ofNat 32 p.missedCount, wordA := e.cookie, wordB := BitVec.ofNat 64 p.latestDeadline }

/-- R161, R63: the pending expiry of slot `k`'s entry is taken for writing into ring `c`. A FIRED entry is freed with a posting mark (R16);
any other stays as it is, without a pending expiry. The entry is out of the deferred list when this is called. -/
def State.takeExpiry (s : State) (c : Fin 8) (k : Nat) : State :=
  match s.entryAt k with
  | none => s
  | some e =>
    match e.pendingExpiry with
    | none => s
    | some p =>
      let g := s.generationAt k
      let ringSlot := (s.cr c).tail
      let write := s.poster.writes
      let s := s.takeForWriting c false (expiryRecord k g e p) (.expiry k g p)
      let s := s.setEntry k { e with pendingExpiry := none }
      if e.phase = .fired then
        let s := s.freeEntry k
        s.setRow k { s.rowAt k with mark := some { generation := g, entry := e, ring := c, ringSlot := ringSlot, write := write } }
      else s

/-- R62, R157, R171: a newly created pending expiry is handed over. It is taken at once when the device is READY, the ring ACTIVE with free
space, and its deferred list empty; otherwise the entry joins the deferred list. -/
def State.handExpiry (s : State) (c : Fin 8) (k : Nat) : State :=
  if s.ready ∧ (s.cr c).state = .active ∧ 1 ≤ (s.cr c).freeSpace ∧ (s.cr c).deferred = [] then s.takeExpiry c k
  else s.updateCr c (fun r => { r with deferred := r.deferred ++ [k] })

/-! ### Completions of commands (R111) -/

/-- R111: what a command's entry puts into its completion; a field the entry does not name is 0. -/
structure Reply where
  status : Status
  handle : Word := 0#32
  count : Word := 0#32
  wordA : DWord := 0#64
  wordB : DWord := 0#64
  flags : Half := 0#16
deriving DecidableEq, Repr

/-- R111: the completion record of a command. -/
def Reply.completion (r : Reply) (t : Ticket) : Completion :=
  { kind := .command, status := r.status.code, flags := r.flags, source := BitVec.ofNat 8 t.source.val, tag := t.tag
    handle := r.handle, count := r.count, wordA := r.wordA, wordB := r.wordB }

/-- R110, R111: a completion with this reply is handed to the ring that holds the ticket's reservation. -/
def State.reply (s : State) (t : Ticket) (r : Reply) : State := s.handCompletion t.ring (r.completion t)

end Sys2Proof.Machine
end

