-- ==== Sys2Proof/Machine/Executor.lean ====
section
/-! DEFINITION. The Command Executor's part that every command shares: the take of a record (R106), the order of checks (R108), the ends of a
command (R109, R110) and the held completion of a CLOSE SUBMISSION RING (R106, R121, R146); and the take of a waiting ARM's turn (R13). -/

namespace Sys2Proof.Machine

/-- R106: the record the executor may take now: it is IDLE, the device READY, the input place filled, and a held completion lets only the
closing ring's record through. -/
def State.takeable (s : State) : Option Delivered :=
  if s.ready ∧ s.executor.state = .idle then
    match s.executor.input, s.executor.held with
    | some d, none => some d
    | some d, some h => if d.source = h.closing then some d else none
    | none, _ => none
  else none

/-- R138: when the executor takes the record, a DELIVERED path becomes IDLE. -/
def FetchPath.onTake : FetchPath → FetchPath
  | .delivered _ => .idle
  | p => p

/-- R106, R141: the ticket of a delivered record. -/
def Delivered.ticket (d : Delivered) : Ticket := { source := d.source, ring := d.ring, tag := recTag d.record }

/-- R106: a record as the executor takes it when device time is `now`. -/
def Delivered.taken (d : Delivered) (now : Nat) : Taken := { ticket := d.ticket, record := d.record, takenAt := now }

/-- R106: the take, where a record may be taken: the input place empties, the executor is EXECUTING with N as read, and the fetch path is free again
(R138). Where none may be taken, the state stays. -/
def State.takeRecord (s : State) : State :=
  match s.takeable with
  | none => s
  | some d =>
    { s with
      executor := { s.executor with state := .executing (d.taken s.timebase.time), input := none }
      fetcher := { s.fetcher with path := s.fetcher.path.onTake } }

/-- R106: the command whose claims the executor can make now: the one it is EXECUTING, or else the one it may take. -/
def State.inHand (s : State) : Option Taken :=
  match s.takeRecord.executor.state with
  | .executing w => some w
  | .idle | .waiting _ => none

/-- R106, R121: the held completion, if any, is handed to the ring that holds its reservation. -/
def State.handHeld (s : State) : State :=
  match s.executor.held with
  | none => s
  | some h => ({ s with executor := { s.executor with held := none } } : State).handCompletion h.ring h.completion

/-- R146: a CLOSING ring becomes CLOSED when the command of its fetched record has ended, or its read has failed; the completion held for
that is handed. A ring in another state is left as it is. -/
def State.finishClosing (s : State) (i : Fin 8) : State :=
  if (s.sr i).state = .closing then (s.updateSr i (fun _ => SubmissionRing.reset)).handHeld else s

/-- R106: a command ends for the executor, which returns to IDLE. -/
def State.endCommand (s : State) (t : Ticket) : State :=
  ({ s with executor := { s.executor with state := .idle } } : State).finishClosing t.source

/-- R109: an immediate command ends: its completion is handed, and the executor returns to IDLE. -/
def State.answer (s : State) (t : Ticket) (r : Reply) : State := (s.reply t r).endCommand t

/-- R108: the reply of a refused command: the status of the failed check, the command's handle when it names one, every other field 0. -/
def refusal (k : CommandKind) (status : Status) (r : CommandBits) : Reply :=
  { status := status, handle := if k.namesHandle then echoHandle (recHandle r) else 0#32 }

/-- R106, R108: the claims of the command in hand, when that is one of kind `k`: first the checks that need no other block, admin-only, then the field
values (`fieldsBad`, given the record and N at the take); a command that passes them goes on to `body`. The executor may have taken the command
before (by an ARBITRATION: the path's return to IDLE, R138), and otherwise takes it in the same step (DEDUCED, assumption log 6). The claims of a
command taken before are completed in every device state (R106, R192). When there is no such command, nothing happens (DESIGN CHOICE, assumption
log 5). -/
def runCommand (k : CommandKind) (fieldsBad : CommandBits → Nat → Bool) (body : Taken → State → State) (s : State) : State :=
  match s.inHand with
  | none => s
  | some w =>
    if kindOf w.record = some k then
      if k.adminOnly ∧ w.ticket.source ≠ 0 then s.takeRecord.answer w.ticket (refusal k .adminOnly w.record)
      else if fieldsBad w.record w.takenAt then s.takeRecord.answer w.ticket (refusal k .invalidField w.record)
      else body w s.takeRecord
    else s

/-- R108, R109: the own checks of an immediate command and its effect, in one claim; the first check that fails refuses it. -/
def checked (k : CommandKind) (w : Taken) (checks : List (Bool × Status)) (effect : State → State × Reply) (s : State) : State :=
  match firstFailure checks with
  | some status => s.answer w.ticket (refusal k status w.record)
  | none => (effect s).1.answer w.ticket (effect s).2

/-- R110: the own checks of a job-kind command; one that passes hands its work to the owner (`start`) and the executor returns to IDLE. -/
def checkedJob (k : CommandKind) (w : Taken) (checks : List (Bool × Status)) (start : State → State) (s : State) : State :=
  match firstFailure checks with
  | some status => s.answer w.ticket (refusal k status w.record)
  | none => (start s).endCommand w.ticket

/-- The domain that a command record names; its field check has passed, so the number is at most 63. -/
def recDomainFin (r : CommandBits) : Fin 64 := Fin.ofNat 64 (recDomain r)

/-- The ring that a command record names; its field check has passed, so the number is at most 7. -/
def recRingFin (r : CommandBits) : Fin 8 := Fin.ofNat 8 (recRing r)

/-- The paired or completion ring that a command record names; its field check has passed, so the number is at most 7. -/
def recPairedFin (r : CommandBits) : Fin 8 := Fin.ofNat 8 (recPaired r)

/-- R107, R108: the executor refuses a record whose kind byte is none of the nineteen INVALID_KIND. -/
def execInvalidKind (s : State) : Host.Outcome State Fault Refusal :=
  .next (match s.inHand with
    | none => s
    | some w => if kindOf w.record = none then s.takeRecord.answer w.ticket { status := .invalidKind } else s)

end Sys2Proof.Machine
end

