-- ==== Sys2Proof/Machine/Fetching.lean ====
section
/-! DEFINITION. The Submission Fetcher (chapter 7): tail register writes, the arbiter with its reservation claim, the arrival of a record and
the failure of its read. -/

namespace Sys2Proof.Machine

/-! ### The tail register (R135) -/

/-- R135: a write of `v` to the tail register of ring `i`, honoured in READY when the ring is ACTIVE and otherwise ignored. -/
def State.writeTail (s : State) (i : Fin 8) (v : Nat) : State :=
  if s.ready ∧ (s.sr i).state = .active then
    if v < (s.sr i).size then s.updateSr i (fun r => { r with tail := v })
    else if i = 0 then s.fatal .badAdminIndex
    else (s.updateSr i (fun r => { r with state := .error, cause := .badIndex })).raise .ringError (.submissionRing i) .badIndex
  else s

/-- SR_TAIL_WRITE (R135, R143); the register takes the whole 32-bit value written (R202). -/
def execSrTailWrite (i : Fin 8) (value : Word) (s : State) : Host.Outcome State Fault Refusal := .next (s.writeTail i value.toNat)

/-! ### The arbiter (R136, R139) -/

/-- R136: the ring is eligible for a fetch; the last two conditions are the reservation claim's. -/
def State.eligible (s : State) (i : Fin 8) : Bool :=
  let r := s.sr i
  r.state == .active && r.tail != r.head && (s.cr r.paired).state == .active && decide (1 ≤ (s.cr r.paired).freeSpace)

/-- R139, step 3: the I/O rings in number order after the present holder, wrapping from SR7 to SR1, the holder last; from SR1 when no ring
holds the grant. -/
def searchOrder : Option (Fin 8) → List (Fin 8)
  | none => [1, 2, 3, 4, 5, 6, 7]
  | some h => (List.range 7).map (fun k => Fin.ofNat 8 ((h.val + k) % 7 + 1))

/-- R139, step 3: ring `i` gets the grant, with the weight it has now (R145). -/
def Fetcher.grantTo (f : Fetcher) (i : Fin 8) (weight : Nat) : Fetcher := { f with grant := some i, used := 1, grantWeight := weight }

/-- R139: the ring to be served, with the fetcher as serving it leaves the grant. Steps 1 and 4 leave the grant and the used count as they are, also when
the holder has been closed, so a holder that is opened again before step 3 is reached goes on in its grant, with the weight it had when it got the
grant (R145) (DESIGN CHOICE, assumption log 32). -/
def State.arbitrate (s : State) : Option (Fin 8 × Fetcher) :=
  let f := s.fetcher
  let next := ((searchOrder f.grant).find? (fun i => s.eligible i)).map (fun i => (i, f.grantTo i (s.sr i).weight))
  if s.eligible 0 then some (0, f)
  else
    match f.grant with
    | some h => if s.eligible h ∧ f.used < f.grantWeight then some (h, { f with used := f.used + 1 }) else next
    | none => next

/-- R136, R140: the reservation in the paired completion ring, and the start of the fetch of the record at the ring's head. -/
def State.startFetch (s : State) (i : Fin 8) : State :=
  let r := s.sr i
  let s := s.updateCr r.paired (fun q => { q with reserved := q.reserved + 1 })
  let s := s.pushDma (.fetchRead i (r.base + BitVec.ofNat 64 (64 * r.head)))
  { s with fetcher := { s.fetcher with path := .reading { source := i, headSlot := r.head, ring := r.paired } } }

/-- R138, R139: with the path IDLE in READY, an eligible ring is chosen and its fetch starts. -/
def State.holdArbitration (s : State) : State :=
  if s.ready ∧ s.fetcher.path = .idle then
    match s.arbitrate with
    | none => s
    | some (i, f) => ({ s with fetcher := f } : State).startFetch i
  else s

/-- R106: the take that an ARBITRATION makes: of any record that the executor may take now, but not of one whose take and claim
are one step, a KICK's (R69), a READ STATUS's (R12, R23, R119), a PAUSE DOMAIN's (R72, R77) or a RESUME DOMAIN's (R81) (DEDUCED,
assumption log 6). -/
def State.takeAhead (s : State) : State :=
  if s.takeable.any (fun d => !(kindOf d.record).any (·.atOnce)) then s.takeRecord else s

/-- ARBITRATION (R138, R139). "The path's return to IDLE" is one of the events at which an arbitration is held, and it is the executor's take that returns
a DELIVERED path to IDLE (R138, R106): where the executor may take the delivered record, it does so first, and is then EXECUTING its command while
the next fetch starts (DEDUCED, assumption log 6). -/
def execArbitration (s : State) : Host.Outcome State Fault Refusal := .next s.takeAhead.holdArbitration

/-! ### The end of a read (R141, R142, R148) -/

/-- R141: the head advances by one, from size−1 to 0; a ring that has become CLOSED since the fetch started keeps head 0, also when it has been
opened again (DEDUCED, assumption log 31). -/
def SubmissionRing.advance (r : SubmissionRing) (closed : Bool) : SubmissionRing :=
  if r.state = .closed ∨ closed then r else { r with head := if r.size ≤ r.head + 1 then 0 else r.head + 1 }

/-- The fetch path is `p`. -/
def State.setPath (s : State) (p : FetchPath) : State := { s with fetcher := { s.fetcher with path := p } }

/-- RECORD_ARRIVAL (R141): the head advances and the record is placed in the executor's input place; outside READY it is discarded (R148). -/
def execRecordArrival (record : CommandBits) (s : State) : Host.Outcome State Fault Refusal :=
  .next (match s.fetcher.path with
    | .reading f =>
      let s' := s.endDma DmaRequest.ofFetcher
      if s.ready then
        let s' := (s'.updateSr f.source (·.advance f.ringClosed)).setPath (.delivered f)
        { s' with executor := { s'.executor with input := some { record := record, source := f.source, ring := f.ring } } }
      else s'.setPath .idle
    | _ => s)

/-- R142: an ACTIVE ring enters ERROR with cause BUS_ERROR; one in ERROR keeps its cause, one that is CLOSED stays so. A ring that has become CLOSED
since the fetch started is left as it is, also when it has been opened again (DEDUCED, assumption log 31). -/
def SubmissionRing.failRead (r : SubmissionRing) (closed : Bool) : SubmissionRing :=
  if r.state = .active ∧ !closed then { r with state := .error, cause := .busError } else r

/-- R142, R146: the read of a record from an I/O ring has failed in READY: the reservation is released, RING_ERROR is raised, and the ring
enters ERROR, or becomes CLOSED when it was CLOSING. -/
def State.readFailed (s : State) (f : Fetch) : State :=
  let s := s.updateCr f.ring (fun q => { q with reserved := q.reserved - 1 })
  let s := (s.updateSr f.source (·.failRead f.ringClosed)).raise .ringError (.submissionRing f.source) .busError
  s.finishClosing f.source

/-- READ_BUS_ERROR (R142, R143): the read of a command record ends in a bus error; outside READY the end is discarded (R148). -/
def execReadBusError (s : State) : Host.Outcome State Fault Refusal :=
  .next (match s.fetcher.path with
    | .reading f =>
      let s' := (s.endDma DmaRequest.ofFetcher).setPath .idle
      if s.ready then (if f.source = 0 then s'.fatal .sr0ReadError else s'.readFailed f) else s'
    | _ => s)

end Sys2Proof.Machine
end

