-- ==== Sys2Proof/Machine/TimerCommands.lean ====
section
/-! DEFINITION. The timer commands (section 6.2): ARM and its waiting allocation claim, REARM, CANCEL, KICK, QUERY, READ STATUS. -/

namespace Sys2Proof.Machine

/-! ### ARM (R113, R114) and ALLOCATION (R13) -/

/-- R113: ARM's own checks, in order. -/
def armChecks (r : CommandBits) (s : State) : List (Bool × Status) :=
  let d := s.domain (recDomainFin r)
  [(d.state == .free, .noSuchDomain),
   (d.isBusy, .domainBusy),
   (s.timebase.state == .stopped, .timebaseStopped),
   ((s.cr (recPairedFin r)).state == .closed, .noSuchRing),
   (decide (d.quota.getD 0 < d.inUse + s.marksNaming (recDomainFin r) + 1), .quotaExceeded),
   (decide (s.unmarkedFree ≤ s.table.reservation), .noEntries)]

/-- R114: the entry that an ARM makes, with N as read at its take; `place` sets its phase and location. -/
def armEntry (r : CommandBits) (now : Nat) : Entry :=
  { phase := .armed
    kind := (TimerKind.ofCode (recTimerKind r).toNat).getD .oneshot
    domain := recDomainFin r, ring := recPairedFin r
    deadline := commandDeadline r now
    period := if recPeriod r = 0 then none else some (recPeriod r)
    fireLimit := if recFireLimit r = 0 then none else some (recFireLimit r)
    cookie := recCookie r, faultOption := recFaultOption r, totalFires := 0
    pendingExpiry := none, importMark := false, location := none }

/-- R13, R15: the slot at the head of the free list is taken from the list for an entry of this ring. -/
def State.allocateHead (s : State) (ring : Fin 8) : State :=
  ({ s with table := { s.table with freeList := s.table.freeList.tail } } : State).updateCr ring
    (fun r => { r with bound := r.bound + 1 })

/-- R114: the effect of an ARM that passes its checks, with its reply. -/
def armEffect (r : CommandBits) (now : Nat) (s : State) : State × Reply :=
  let k := s.table.freeList.headD 0
  let e := armEntry r now
  let s' := (((s.allocateHead e.ring).updateDomain e.domain (fun d => { d with inUse := d.inUse + 1 })).place k e)
  (s', { status := .success, handle := handleOf k (s.generationAt k), wordA := BitVec.ofNat 64 e.deadline
         flags := flagFaultOption e.faultOption })

/-- R113, R114: the allocation claim of an ARM, with all six checks, and the completion. -/
def armClaim (w : Taken) (s : State) : State :=
  checked .arm w (armChecks w.record s) (armEffect w.record w.takenAt) s

/-- R13, R106: an ARM whose claim finds the free-list head marked waits, and so does one that finds another allocation claim waiting (DEDUCED, assumption
log 15); any other makes its claim at once. -/
def armBody (w : Taken) (s : State) : State :=
  if s.headMarked ∨ s.table.waiting ≠ [] then
    { s with
      executor := { s.executor with state := .waiting w }
      table := { s.table with waiting := s.table.waiting ++ [.arm] } }
  else armClaim w s

/-- ARM (R113, R114). -/
def execArm (s : State) : Host.Outcome State Fault Refusal := .next (runCommand .arm armFieldsBad armBody s)

/-- R13: the waiting ARM's claim can be taken: the free-list head carries no mark, and the ARM is first in the waiting order. -/
def State.allocates (s : State) : Bool := !s.headMarked && s.table.waiting.head? == some .arm

/-- ALLOCATION (R13, R106): the waiting ARM's claim is taken "at the first moment the head slot carries no mark", whatever the device state (R106: a
command in WAITING completes its claims). Outside READY no mark is removed, so a claim that still waits there is not taken (R192). -/
def execAllocation (s : State) : Host.Outcome State Fault Refusal :=
  .next (match s.executor.state with
    | .waiting w =>
      if s.allocates then
        armClaim w
          { s with
            executor := { s.executor with state := .executing w }
            table := { s.table with waiting := s.table.waiting.tail } }
      else s
    | .idle | .executing _ => s)

/-! ### REARM (R115, R68) -/

/-- R68: the matched entry gets the command's deadline, and its period if one is given, and is placed against W. -/
def rearmEffect (r : CommandBits) (now : Nat) (e : Entry) (s : State) : State × Reply :=
  let k := handleSlot (recHandle r)
  let e' := { e with
    deadline := commandDeadline r now
    period := if recPeriod r = 0 then e.period else some (recPeriod r) }
  (((s.leavePlace k e).uncountTrip e).place k e',
   { status := .success, handle := echoHandle (recHandle r), wordA := BitVec.ofNat 64 e'.deadline
     flags := flagWasTripped (e.phase == .tripped) })

/-- R115: REARM's own checks and effect, in one claim. -/
def rearmBody (w : Taken) (s : State) : State :=
  match s.matchHandle (recHandle w.record) with
  | none => s.answer w.ticket (refusal .rearm .notFound w.record)
  | some e =>
    checked .rearm w
      [((s.domain e.domain).isBusy, .domainBusy),
       (recPeriod w.record != 0 && e.kind == .oneshot, .wrongKind),
       (e.phase == .fired, .tooLate)]
      (rearmEffect w.record w.takenAt e) s

/-- REARM (R115). -/
def execRearm (s : State) : Host.Outcome State Fault Refusal := .next (runCommand .rearm rearmFieldsBad rearmBody s)

/-! ### CANCEL (R116, R67) -/

/-- R116: the matched entry is freed; the status says whether a pending expiry was withdrawn. -/
def cancelEffect (r : CommandBits) (e : Entry) (s : State) : State × Reply :=
  (s.freeEntry (handleSlot (recHandle r)),
   { status := if e.pendingExpiry.isSome then .withdrawn else .success, handle := echoHandle (recHandle r)
     flags := flagWasTripped (e.phase == .tripped) })

/-- R116: CANCEL's own checks and effect, in one claim. -/
def cancelBody (w : Taken) (s : State) : State :=
  match s.matchHandle (recHandle w.record) with
  | none => s.answer w.ticket (refusal .cancel .notFound w.record)
  | some e => checked .cancel w [((s.domain e.domain).isBusy, .domainBusy)] (cancelEffect w.record e) s

/-- CANCEL (R116). -/
def execCancel (s : State) : Host.Outcome State Fault Refusal :=
  .next (runCommand .cancel (fun r _ => handleFieldsBad r) cancelBody s)

/-! ### KICK (R117, R69) -/

/-- R69: the guard's deadline becomes N at the take plus its period, and it is placed. W cannot have passed N at the take when the claim is made, since
a KICK's take and claim are one step (DEDUCED, assumption log 6), so the guard always becomes ARMED. -/
def kickEffect (r : CommandBits) (now : Nat) (e : Entry) (s : State) : State × Reply :=
  let k := handleSlot (recHandle r)
  let e' := { e with deadline := now + e.period.getD 0 }
  (((s.leavePlace k e).uncountTrip e).place k e',
   { status := .success, handle := echoHandle (recHandle r), wordA := BitVec.ofNat 64 e'.deadline
     flags := flagWasTripped (e.phase == .tripped) ||| flagFaultOption e.faultOption })

/-- R117: KICK's own checks and effect, in one claim. -/
def kickBody (w : Taken) (s : State) : State :=
  match s.matchHandle (recHandle w.record) with
  | none => s.answer w.ticket (refusal .kick .notFound w.record)
  | some e =>
    checked .kick w
      [((s.domain e.domain).isBusy, .domainBusy),
       (e.kind != .guard, .wrongKind),
       (decide (Config.maxTick < w.takenAt + e.period.getD 0), .invalidField)]
      (kickEffect w.record w.takenAt e) s

/-- KICK (R117). -/
def execKick (s : State) : Host.Outcome State Fault Refusal :=
  .next (runCommand .kick (fun r _ => handleFieldsBad r) kickBody s)

/-! ### QUERY (R118) -/

/-- R24, R70, R118: the remaining ticks that a QUERY reports, with N as `now`: D − N when the deadline is later than N, otherwise 0; and 0 for a HELD,
FIRED or TRIPPED entry, also for an imported TRIPPED one whose deadline is later than N, of which R118's table says D − N (DESIGN CHOICE, assumption
log 33). -/
def Entry.remaining (e : Entry) (now : Nat) : Nat :=
  match e.phase with
  | .armed | .due => e.deadline - now
  | .held | .fired | .tripped => 0

/-- R118: what a QUERY reports of a matched entry, with N at the claim. -/
def queryReply (r : CommandBits) (now : Nat) (e : Entry) : Reply :=
  { status := .success, handle := echoHandle (recHandle r), wordA := BitVec.ofNat 64 (e.remaining now), wordB := e.cookie
    count := BitVec.ofNat 32 e.totalFires, flags := queryFlags e }

/-- R118. -/
def queryBody (w : Taken) (s : State) : State :=
  match s.matchHandle (recHandle w.record) with
  | none => s.answer w.ticket (refusal .query .notFound w.record)
  | some e => s.answer w.ticket (queryReply w.record s.timebase.time e)

/-- QUERY (R118). -/
def execQuery (s : State) : Host.Outcome State Fault Refusal :=
  .next (runCommand .query (fun r _ => handleFieldsBad r) queryBody s)

/-! ### READ STATUS (R119) -/

/-- R119: how many entries stand in all deferred lists. -/
def State.deferredTotal (s : State) : Nat := (s.poster.rings.toList.map (fun r => r.deferred.length)).sum

/-- R119, section 11.4: what READ STATUS reports; the handle field holds the import reservation in bits 0 to 15 and the deferred total in bits
16 to 31. -/
def State.statusReply (s : State) : Reply :=
  { status := .success
    handle := BitVec.ofNat 16 s.deferredTotal ++ BitVec.ofNat 16 s.table.reservation
    count := BitVec.ofNat 32 s.table.freeList.length
    wordA := BitVec.ofNat 64 s.timebase.time, wordB := BitVec.ofNat 64 s.wheel.time
    flags := flagTimebase s.timebase.state ||| flagOverrun s.wheel.overrun ||| flagFaultOut s.faultOut |||
      flagSubmissionError (s.fetcher.rings.toList.any (fun r => r.state == .error)) |||
      flagCompletionError (s.poster.rings.toList.any (fun r => r.state == .error)) }

/-- R119: all is read in one claim. Take and claim are one step (`CommandKind.atOnce`), so it is also what stands "when the command is taken", as R12 says of
the free-list length, R23 of W, R94 of the timebase state and R104 of N (DEDUCED, assumption log 6). -/
def readStatusBody (w : Taken) (s : State) : State := s.answer w.ticket s.statusReply

/-- READ STATUS (R119): no field checks and no own checks. -/
def execReadStatus (s : State) : Host.Outcome State Fault Refusal :=
  .next (runCommand .readStatus (fun _ _ => false) readStatusBody s)

end Sys2Proof.Machine
end

