-- ==== Sys2Proof/Machine/DeviceStates.lean ====
section
/-! DEFINITION. The Host Port (chapter 10): enable, disable, the two resets, and the register window, with the head register of a completion ring
(R155) and DEVICE_TIME (R103). -/

namespace Sys2Proof.Machine

/-! ### Enabling (R190) -/

/-- R190: the admin configuration is valid. -/
def AdminRegisters.valid (a : AdminRegisters) : Bool :=
  !badSize a.srSize.toNat && !badSize a.crSize.toNat && !misaligned a.srBase 64 && !misaligned a.crBase 64 && !misaligned a.msgAddress 4

/-- R147: SR0 as the device enters READY. -/
def adminSubmission (a : AdminRegisters) : SubmissionRing :=
  { state := .active, base := a.srBase, size := a.srSize.toNat, head := 0, tail := 0, paired := 0, weight := 0, cause := .none }

/-- R173: CR0 as the device enters READY. -/
def adminCompletion (a : AdminRegisters) : CompletionRing :=
  { CompletionRing.reset with
    state := .active, base := a.crBase, size := a.crSize.toNat
    messageAddress := a.msgAddress, messageData := a.msgData, interrupts := true, moderationCount := 1, moderationDelay := 0 }

/-- R190: the enable check of a DISABLED device: READY, with SR0 and CR0 set up, or FAILED with BAD_ADMIN_CONFIG. -/
def State.enableCheck (s : State) : State :=
  if s.host.admin.valid then
    let s := (s.updateSr 0 (fun _ => adminSubmission s.host.admin)).updateCr 0 (fun _ => adminCompletion s.host.admin)
    { s with host := { s.host with device := .ready, fatalCause := .none } }
  else { s with host := { s.host with device := .failed, fatalCause := .badAdminConfig } }

/-- R190: a write of 1 to CONTROL.ENABLE; one that finds the bit 1 already has no effect (R198). -/
def State.writeEnable1 (s : State) : State :=
  if s.host.enable then s
  else
    let s' : State := { s with host := { s.host with enable := true } }
    if s.host.device = .disabled then s'.enableCheck else s'

/-- ENABLE_SET (R190). -/
def execEnableSet (s : State) : Host.Outcome State Fault Refusal := .next s.writeEnable1

/-! ### Disabling (R192, R193) -/

/-- R190, R192: a write of 0 to CONTROL.ENABLE; one that finds the bit 0 already has no effect (R198). From READY or FAILED it starts the drain. -/
def State.writeEnable0 (s : State) : State :=
  if s.host.enable then
    let s' : State := { s with host := { s.host with enable := false } }
    if s.host.device = .ready ∨ s.host.device = .failed then { s' with host := { s'.host with device := .stopping } } else s'
  else s

/-- ENABLE_CLEAR (R192). -/
def execEnableClear (s : State) : Host.Outcome State Fault Refusal := .next s.writeEnable0

/-- R193, R194: every block takes the values its chapter gives for a reset or a disable (R22, R47, R71, R90, R105, R106, R150, R173, R188), the
device is DISABLED, and no DMA request is in flight. -/
def State.resetBlocks (s : State) : State :=
  { s with
    host := { s.host with device := .disabled, dma := [] }
    fetcher := .reset, executor := .reset, table := .reset, wheel := .reset, expiry := .reset
    domains := Vector.replicate 64 Domain.reset, timebase := .reset, poster := .reset, transfer := .reset }

/-- R193: the executor is taking a claim: it is EXECUTING a command, or the claim its ARM waited for can be taken. An ABORT TRANSFER whose job the Transfer
Unit no longer ends (R188) takes none (DEDUCED, assumption log 18). -/
def State.claiming (s : State) : Bool :=
  match s.executor.state with
  | .idle => false
  | .executing w => !(kindOf w.record == some .abortTransfer && w.ticket.source == 0 && s.transfer.job.isSome)
  | .waiting _ => s.allocates

/-- R193: no DMA request is in flight and no block is taking a claim; between two commands the only claims under way are a wheel step and the
executor's. -/
def State.drained (s : State) : Bool := s.host.dma == [] && s.wheel.step == none && !s.claiming

/-- DISABLE (R193): in STOPPING, when the drain is complete, every block takes its disable values; if ENABLE is 1, the enable check is made in
the same event. -/
def execDisable (s : State) : Host.Outcome State Fault Refusal :=
  .next (if s.host.device = .stopping ∧ s.drained then
      if s.host.enable then s.resetBlocks.enableCheck else s.resetBlocks
    else s)

/-! ### Resets (R194, R195) -/

/-- R194: a device reset, in any device state. -/
def State.deviceReset (s : State) : State :=
  let s' := s.resetBlocks
  { s' with host := { s'.host with enable := false, resetCause := .deviceReset, fatalCause := .none } }

/-- DEVICE_RESET (R194). -/
def execDeviceReset (s : State) : Host.Outcome State Fault Refusal := .next s.deviceReset

/-- POWER_ON_RESET (R195): every effect of a device reset, and the admin configuration registers are cleared. -/
def execPowerOnReset (s : State) : Host.Outcome State Fault Refusal :=
  let s' := s.deviceReset
  .next { s' with host := { s'.host with admin := .reset, resetCause := .powerOn } }

/-! ### Head registers (R155) -/

/-- R155: how many records a write of `h` would release. -/
def CompletionRing.released (r : CompletionRing) (h : Nat) : Nat := (h + r.size - r.head) % r.size

/-- R155: the value is below the size and releases no record that is not taken for writing. -/
def CompletionRing.goodHead (r : CompletionRing) (h : Nat) : Bool := decide (h < r.size) && decide (r.released h ≤ r.unconsumed)

/-- R155, R163: an ACTIVE ring enters ERROR with cause BAD_INDEX. -/
def CompletionRing.failHead (r : CompletionRing) : CompletionRing :=
  { r with state := .error, cause := .badIndex, unnotified := 0, delayCount := none }

/-- R155: a write of `h` to the head register of ring `c`, honoured in READY when the ring is open and otherwise ignored. The drain, the posting
of events and the arbitration that the new space allows follow as commands of their own. -/
def State.writeHead (s : State) (c : Fin 8) (h : Nat) : State :=
  let r := s.cr c
  if s.ready ∧ r.state ≠ .closed then
    if r.goodHead h then s.updateCr c (fun r => { r with head := h, unconsumed := r.unconsumed - r.released h })
    else if r.state = .error then s
    else if c = 0 then s.fatal .badAdminIndex
    else (s.updateCr c CompletionRing.failHead).raise .ringError (.completionRing c) .badIndex
  else s

/-- CR_HEAD_WRITE (R155); the register takes the whole 32-bit value written (R202). -/
def execCrHeadWrite (c : Fin 8) (value : Word) (s : State) : Host.Outcome State Fault Refusal := .next (s.writeHead c value.toNat)

/-! ### Reads of the register window (R197, R199, R200, section 11.2) -/

/-- The low word of a 64-bit register. -/
def lowWord (x : DWord) : Word := x.extractLsb' 0 32

/-- The high word of a 64-bit register. -/
def highWord (x : DWord) : Word := x.extractLsb' 32 32

/-- N as the 64 bits that DEVICE_TIME reads. -/
def State.deviceTime (s : State) : DWord := BitVec.ofNat 64 s.timebase.time

/-- R199, section 11.2: IDENTITY. -/
def identityWord : Word := Config.vendorCode ++ Config.siliconRevision ++ Config.partNumber

/-- R199, section 11.2: STATUS. -/
def State.statusWord (s : State) : Word :=
  BitVec.ofNat 32 (s.host.device.code + 16 * s.host.fatalCause.code + 256 * s.host.resetCause.code + 512 * s.faultOut.toNat)

/-- R197: what a read of the aligned word at `offset` returns; an offset that names no register reads as 0. A read changes nothing, but for the
latch that a read of DEVICE_TIME's low word fills (`State.readWord`). -/
def State.readRegister (s : State) (offset : Nat) : Word :=
  match offset with
  | 0x000 => identityWord
  | 0x004 => BitVec.ofNat 32 s.host.enable.toNat
  | 0x008 => s.statusWord
  | 0x010 => lowWord s.host.admin.srBase
  | 0x014 => highWord s.host.admin.srBase
  | 0x018 => s.host.admin.srSize
  | 0x020 => lowWord s.host.admin.crBase
  | 0x024 => highWord s.host.admin.crBase
  | 0x028 => s.host.admin.crSize
  | 0x030 => lowWord s.host.admin.msgAddress
  | 0x034 => highWord s.host.admin.msgAddress
  | 0x038 => s.host.admin.msgData
  | 0x040 => lowWord s.deviceTime
  | 0x044 => s.timebase.latch
  | _ =>
    if offset % 4 ≠ 0 then 0#32
    else if 0x100 ≤ offset ∧ offset < 0x120 then BitVec.ofNat 32 (s.sr (Fin.ofNat 8 ((offset - 0x100) / 4))).tail
    else if 0x140 ≤ offset ∧ offset < 0x160 then BitVec.ofNat 32 (s.cr (Fin.ofNat 8 ((offset - 0x140) / 4))).head
    else 0#32

/-- R103, R197: the read of the aligned word at `offset`: a read of DEVICE_TIME's low word copies bits 32 to 63 of the same N into the high-word
latch. -/
def State.readWord (s : State) (offset : Nat) : Word × State :=
  (s.readRegister offset, if offset = 0x040 then { s with timebase := { s.timebase with latch := highWord s.deviceTime } } else s)

/-- R197: `count` words in ascending address order, each read as a separate access. -/
def State.readWords (offset : Nat) : Nat → State → List Word × State
  | 0, s => ([], s)
  | count + 1, s =>
    let first := s.readWord offset
    let rest := State.readWords (offset + 4) count first.2
    (first.1 :: rest.1, rest.2)

/-- R197: a read of `bits` bits, fewer than 32, at `offset`: it "returns the corresponding bytes of the word and has the effects of a read of the whole
word". -/
def State.readNarrow (s : State) (offset bits : Nat) : BitVec bits × State :=
  let word := s.readWord (4 * (offset / 4))
  (word.1.extractLsb' (8 * (offset % 4)) bits, word.2)

/-- R197: a read of `width` at `offset`. -/
def State.readAccess (s : State) (offset : Nat) : AccessWidth → RegisterData × State
  | .byte =>
    let read := s.readNarrow offset 8
    (.byte read.1, read.2)
  | .half =>
    let read := s.readNarrow offset 16
    (.half read.1, read.2)
  | .threeBytes =>
    let read := s.readNarrow offset 24
    (.threeBytes read.1, read.2)
  | .words count =>
    let words := State.readWords offset count s
    (.words words.1, words.2)

/-- DEVICE_TIME_LOW_READ (R103, R197): the read returns the bytes it covers, those of the low word being of N's bits 0 to 31, and fills the latch with
bits 32 to 63 of the same N. What it returns stands in `readData` (DESIGN CHOICE, assumption log 13). -/
def execDeviceTimeLowRead (s : State) (offset : Nat := 0x040) (width : AccessWidth := .words 1) : Host.Outcome State Fault Refusal :=
  let read := s.readAccess offset width
  .next { read.2 with host := { read.2.host with readData := read.1 } }

/-! ### Writes to the register window (R197, R198, R200, section 11.2) -/

/-- R194, R198: a write to CONTROL: RESET 1 is a device reset, whatever ENABLE it carries; otherwise ENABLE is written. -/
def State.writeControl (s : State) (v : Word) : State :=
  if v.getLsbD 1 then s.deviceReset else if v.getLsbD 0 then s.writeEnable1 else s.writeEnable0

/-- R197: a 64-bit register after a write of its low word. -/
def setLow (x : DWord) (v : Word) : DWord := highWord x ++ v

/-- R197: a 64-bit register after a write of its high word. -/
def setHigh (x : DWord) (v : Word) : DWord := v ++ lowWord x

/-- Section 11.2: the admin configuration registers after a write of the word at `offset`; another offset leaves them. -/
def AdminRegisters.write (a : AdminRegisters) (offset : Nat) (v : Word) : AdminRegisters :=
  match offset with
  | 0x010 => { a with srBase := setLow a.srBase v }
  | 0x014 => { a with srBase := setHigh a.srBase v }
  | 0x018 => { a with srSize := v }
  | 0x020 => { a with crBase := setLow a.crBase v }
  | 0x024 => { a with crBase := setHigh a.crBase v }
  | 0x028 => { a with crSize := v }
  | 0x030 => { a with msgAddress := setLow a.msgAddress v }
  | 0x034 => { a with msgAddress := setHigh a.msgAddress v }
  | 0x038 => { a with msgData := v }
  | _ => a

/-- R197, R200: a write of the aligned word at `offset`. A write to CONTROL, a tail or a head register has that register's own effect; one to an
admin configuration register is honoured outside READY; any other is ignored. -/
def State.writeRegister (s : State) (offset : Nat) (v : Word) : State :=
  if offset = 0x004 then s.writeControl v
  else if offset % 4 = 0 ∧ 0x100 ≤ offset ∧ offset < 0x120 then s.writeTail (Fin.ofNat 8 ((offset - 0x100) / 4)) v.toNat
  else if offset % 4 = 0 ∧ 0x140 ≤ offset ∧ offset < 0x160 then s.writeHead (Fin.ofNat 8 ((offset - 0x140) / 4)) v.toNat
  else if s.ready then s
  else { s with host := { s.host with admin := s.host.admin.write offset v } }

/-- R197: words written in ascending address order, each as a separate access. -/
def State.writeWords (offset : Nat) : List Word → State → State
  | [], s => s
  | v :: rest, s => State.writeWords (offset + 4) rest (s.writeRegister offset v)

/-- REGISTER_WRITE (R197): a word is written; a narrower write is ignored; a wider one is taken as its words in ascending address order. -/
def execRegisterWrite (offset : Nat) (width : AccessWidth) (value : List Word) (s : State) : Host.Outcome State Fault Refusal :=
  .next (match width with
    | .byte | .half | .threeBytes => s
    | .words count => State.writeWords offset (value.take count) s)

end Sys2Proof.Machine
end

