-- ==== Sys2Proof/Machine/DomainCommands.lean ====
section
/-! DEFINITION. The domain commands (section 6.5, chapter 4): CREATE, DESTROY, PAUSE and RESUME DOMAIN, and the destroy walk of a forced
DESTROY (R86, R88). -/

namespace Sys2Proof.Machine

/-! ### CREATE DOMAIN -/

/-- R74: the record of a domain that is created. -/
def createdDomain (quota : Nat) : Domain := { Domain.reset with state := .running, quota := some quota }

/-- R126: own check and effect. -/
def createBody (w : Taken) (s : State) : State :=
  checked .createDomain w [((s.domain (recDomainFin w.record)).state != .free, .domainExists)]
    (fun s => (s.updateDomain (recDomainFin w.record) (fun _ => createdDomain (recLengthA w.record)), { status := .success })) s

/-- CREATE DOMAIN (R126). -/
def execCreateDomain (s : State) : Host.Outcome State Fault Refusal :=
  .next (runCommand .createDomain (fun r _ => createFieldsBad r) createBody s)

/-! ### DESTROY DOMAIN -/

/-- R84: without force, an empty domain is freed at once, and the marks naming it go. -/
def destroyEffect (r : CommandBits) (s : State) : State × Reply :=
  ((s.removeMarks (recDomainFin r)).updateDomain (recDomainFin r) (fun _ => Domain.reset), { status := .success })

/-- R85: with force, the domain becomes DESTROYING with its pause depth kept, the marks naming it go, and the walk starts. -/
def startDestroy (t : Ticket) (r : CommandBits) (s : State) : State :=
  (s.removeMarks (recDomainFin r)).updateDomain (recDomainFin r) (fun d =>
    { d with state := .destroying, walk := some { position := 0, walkCount := 0, discardCount := 0, ticket := t } })

/-- R127: the checks and effect of the form that the force flag chooses. -/
def destroyBody (w : Taken) (s : State) : State :=
  let d := s.domain (recDomainFin w.record)
  if recForce w.record then
    checkedJob .destroyDomain w [(d.state == .free, .noSuchDomain), (d.isBusy, .domainBusy)] (startDestroy w.ticket w.record) s
  else
    checked .destroyDomain w
      [(d.state == .free, .noSuchDomain), (d.isBusy, .domainBusy), (decide (0 < d.inUse), .domainNotEmpty)]
      (destroyEffect w.record) s

/-- DESTROY DOMAIN (R127). -/
def execDestroyDomain (s : State) : Host.Outcome State Fault Refusal :=
  .next (runCommand .destroyDomain (fun r _ => domainFieldsBad r) destroyBody s)

/-! ### The destroy walk -/

/-- R86: the destroy walk of a domain visits the slot at its position, frees the entry there if it names the domain, and goes on by one. A visit
begins only while the device is READY. -/
def execDestroyWalkVisit (d : Fin 64) (s : State) : Host.Outcome State Fault Refusal :=
  .next (match (s.domain d).walk with
    | none => s
    | some w =>
      if s.ready ∧ w.position < Config.tableSize then
        if (s.entryAt w.position).any (fun e => e.domain == d) then
          (s.freeEntry w.position).updateDomain d (fun rec =>
            { rec with walk := some { w with position := w.position + 1, walkCount := w.walkCount + 1 } })
        else s.updateDomain d (fun rec => { rec with walk := some { w with position := w.position + 1 } })
      else s)

/-- R88: the end of the destroy walk: the marks still naming the domain go, the record becomes FREE, and the DESTROY completion is handed, its
count the walk count plus the discard count. -/
def execDestroyWalkEnd (d : Fin 64) (s : State) : Host.Outcome State Fault Refusal :=
  .next (match (s.domain d).walk with
    | none => s
    | some w =>
      if s.ready ∧ Config.tableSize ≤ w.position then
        ((s.removeMarks d).updateDomain d (fun _ => Domain.reset)).reply w.ticket
          { status := .success, count := BitVec.ofNat 32 (w.walkCount + w.discardCount) }
      else s)

/-! ### PAUSE DOMAIN -/

/-- R72, R77: the pause depth rises by one; a depth that leaves 0 starts the pause at `now`, N at the take, and makes a RUNNING domain PAUSED. Take and claim
are one step (`CommandKind.atOnce`), so that is also N "when the pause depth last went from 0 to 1". -/
def Domain.paused (d : Domain) (now : Nat) : Domain :=
  { d with
    pauseDepth := d.pauseDepth + 1
    state := if d.state = .running then .paused else d.state
    pauseStart := if d.pauseDepth = 0 then some now else d.pauseStart }

/-- R128: own checks and effect; the count is the new depth. -/
def pauseBody (w : Taken) (s : State) : State :=
  let d := s.domain (recDomainFin w.record)
  checked .pauseDomain w
    [(d.state == .free, .noSuchDomain), (decide (Config.maxPauseDepth ≤ d.pauseDepth), .pauseLimit)]
    (fun s => (s.updateDomain (recDomainFin w.record) (fun d => d.paused w.takenAt),
               { status := .success, count := BitVec.ofNat 32 (d.pauseDepth + 1) })) s

/-- PAUSE DOMAIN (R128). -/
def execPauseDomain (s : State) : Host.Outcome State Fault Refusal :=
  .next (runCommand .pauseDomain (fun r _ => domainFieldsBad r) pauseBody s)

/-! ### RESUME DOMAIN -/

/-- R40: each spliced entry becomes DUE, its location record naming the due queue. -/
def State.makeDue (s : State) (k : Nat) : State :=
  match s.entryAt k with
  | none => s
  | some e => s.setEntry k { e with phase := .due, location := some .dueQueue }

/-- R40: the splice of a held list: its entries, in held-list order, join the tail of the due queue as one run. -/
def State.splice (s : State) (held : List Nat) : State :=
  let s := held.foldl State.makeDue s
  { s with wheel := { s.wheel with dueQueue := s.wheel.dueQueue ++ held } }

/-- R80, R81: the resume of a domain, with its reply; `now` is N at the take, and so, take and claim being one step (`CommandKind.atOnce`), at the claim. -/
def resumeEffect (r : CommandBits) (now : Nat) (s : State) : State × Reply :=
  let d := s.domain (recDomainFin r)
  if d.pauseDepth = 1 then
    ((s.splice d.held).updateDomain (recDomainFin r) (fun d =>
       { d with pauseDepth := 0, state := .running, held := [], pauseStart := none }),
     { status := .success, count := 0#32, wordA := BitVec.ofNat 64 (now - d.pauseStart.getD 0)
       wordB := BitVec.ofNat 64 d.held.length })
  else
    (s.updateDomain (recDomainFin r) (fun d => { d with pauseDepth := d.pauseDepth - 1 }),
     { status := .success, count := BitVec.ofNat 32 (d.pauseDepth - 1) })

/-- R129: own checks and effect. -/
def resumeBody (w : Taken) (s : State) : State :=
  let d := s.domain (recDomainFin w.record)
  checked .resumeDomain w
    [(d.state == .free, .noSuchDomain), (d.isBusy, .domainBusy), (d.pauseDepth == 0, .notPaused)]
    (resumeEffect w.record w.takenAt) s

/-- RESUME DOMAIN (R129). -/
def execResumeDomain (s : State) : Host.Outcome State Fault Refusal :=
  .next (runCommand .resumeDomain (fun r _ => domainFieldsBad r) resumeBody s)

end Sys2Proof.Machine
end

