-- ==== Sys2Proof/Machine/Expiry.lean ====
section
/-! DEFINITION. The Expiry Unit's take (chapter 3): discard, hold, and the fires of one-shot, periodic and guard entries. -/

namespace Sys2Proof.Machine

/-- R51: a discard frees the entry and adds one to the discard count of its domain's destroy walk. -/
def State.discard (s : State) (k : Nat) (e : Entry) : State :=
  (s.freeEntry k).updateDomain e.domain (fun d =>
    { d with walk := d.walk.map (fun w => { w with discardCount := w.discardCount + 1 }) })

/-- R52: a hold moves the entry from the due queue to the tail of its domain's held list, as HELD; nothing else of it changes. -/
def State.hold (s : State) (k : Nat) (e : Entry) : State :=
  ((s.leavePlace k e).setEntry k { e with phase := .held, location := none }).updateDomain e.domain (fun d =>
    { d with held := d.held ++ [k] })

/-- R55: how many whole periods lie between the deadline and W. -/
def missedPeriods (w deadline period : Nat) : Nat := (w - deadline) / period

/-- R55: the deadline after the missed ones. -/
def nextDeadline (w deadline period : Nat) : Nat := deadline + (missedPeriods w deadline period + 1) * period

/-- R59, R60: the pending expiry after a fire with deadline `deadline` and `missed` missed periods: a new one, or the waiting one with the fire
counted into it. -/
def recordFire (old : Option PendingExpiry) (kind : ExpiryKind) (deadline missed : Nat) (holdover : Bool) : PendingExpiry :=
  match old with
  | none =>
    { kind := kind, fireCount := 1, missedCount := saturate Config.maxCount32 missed, latestDeadline := deadline, holdover := holdover }
  | some p =>
    { p with
      fireCount := saturate Config.maxCount16 (p.fireCount + 1)
      missedCount := saturate Config.maxCount32 (p.missedCount + missed)
      latestDeadline := deadline
      holdover := p.holdover || holdover }

/-- R53, steps 1 to 3: the fire counted in the entry's total fires and recorded in its pending expiry (R61: the holdover flag follows the
Timebase state at the take). A guard's missed count is 0 (R58), and so is a one-shot's (R54). -/
def Entry.fired (e : Entry) (w : Nat) (holdover : Bool) : Entry :=
  { e with
    totalFires := saturate Config.maxCount32 (e.totalFires + 1)
    pendingExpiry := some (recordFire e.pendingExpiry
      (if e.kind = .guard then .guardTrip else .expiry) e.deadline
      (if e.kind = .periodic then missedPeriods w e.deadline (e.period.getD 0) else 0) holdover) }

/-- R56, R57: this fire is a periodic entry's last: its fire limit reaches 0, or its next deadline would exceed 2^64 − 1. -/
def Entry.lastFire (e : Entry) (w : Nat) : Bool :=
  e.fireLimit == some 1 || decide (Config.maxTick < nextDeadline w e.deadline (e.period.getD 0))

/-- R54, R55, R56, R57, R58: the kind's own change of phase and place, for an entry `e` that has left the due queue and counted its fire. -/
def State.fireKind (s : State) (k : Nat) (e : Entry) : State :=
  match e.kind with
  | .oneshot => s.setEntry k { e with phase := .fired, location := none }
  | .periodic =>
    if e.lastFire s.wheel.time then s.setEntry k { e with phase := .fired, location := none, fireLimit := none }
    else s.place k { e with
      deadline := nextDeadline s.wheel.time e.deadline (e.period.getD 0), fireLimit := e.fireLimit.map (· - 1) }
  | .guard => (s.setEntry k { e with phase := .tripped, location := none }).countTrip e.faultOption

/-- R53: a fire of slot `k`'s entry; a newly created pending expiry is handed to the Completion Poster (R62). -/
def State.fire (s : State) (k : Nat) (e : Entry) : State :=
  let s' := (s.leavePlace k e).fireKind k (e.fired s.wheel.time (s.timebase.state == .holdover))
  if e.pendingExpiry.isNone then s'.handExpiry e.ring k else s'

/-- R50: the first case that applies decides. -/
def State.takeEntry (s : State) (k : Nat) (e : Entry) : State :=
  if (s.domain e.domain).state = .destroying then s.discard k e
  else if 1 ≤ (s.domain e.domain).pauseDepth then s.hold k e
  else s.fire k e

/-- TAKE (R48, R50): in READY, the entry at the head of the due queue is taken. -/
def execTake (s : State) : Host.Outcome State Fault Refusal :=
  .next (if s.ready then
      match s.wheel.dueQueue with
      | [] => s
      | k :: _ =>
        match s.entryAt k with
        | none => s
        | some e => s.takeEntry k e
    else s)

end Sys2Proof.Machine
end

