-- ==== Sys2Proof/Machine/Notification.lean ====
section
/-! DEFINITION. The Completion Poster's own events (chapter 8): the drain, the posting of events, interrupt messages, and the ends of record and
message writes, with the restoration of fires after a failed one (R64, R167). -/

namespace Sys2Proof.Machine

/-- DRAIN (R159): while the device is READY, the ring ACTIVE with free space and its deferred list not empty, the entry at the list's head is taken
for writing. -/
def execDrain (c : Fin 8) (s : State) : Host.Outcome State Fault Refusal :=
  .next (if s.ready ∧ (s.cr c).state = .active ∧ 1 ≤ (s.cr c).freeSpace then
      match (s.cr c).deferred with
      | [] => s
      | k :: _ => (s.updateCr c (·.undefer k)).takeExpiry c k
    else s)

/-- R165: the EVENT record of a member of the event set. -/
def Event.record (e : Event) : Completion :=
  { kind := .event, status := e.kind.code, flags := 0#16, source := e.source.code, tag := BitVec.ofNat 16 e.occurrences
    handle := 0#32, count := BitVec.ofNat 32 e.cause.code, wordA := 0#64, wordB := BitVec.ofNat 64 e.raisedAt }

/-- EVENT_POST (R165): while the device is READY and CR0 ACTIVE with free space, the first member of the event set is taken for writing into
CR0. -/
def execEventPost (s : State) : Host.Outcome State Fault Refusal :=
  .next (if s.ready ∧ (s.cr 0).state = .active ∧ 1 ≤ (s.cr 0).freeSpace then
      match s.poster.events with
      | [] => s
      | e :: rest => ({ s with poster := { s.poster with events := rest } } : State).takeForWriting 0 false e.record .event
    else s)

/-- COUNT_TRIGGER (R162): a message whose count trigger is due is sent. A take for writing sends its own message in its own claim (DEDUCED, assumption
log 11). -/
def execCountTrigger (c : Fin 8) (s : State) : Host.Outcome State Fault Refusal :=
  .next (if s.ready ∧ (s.cr c).state = .active ∧ (s.cr c).countDue then s.sendMessage c else s)

/-- DELAY_TRIGGER (R162): a message whose delay trigger is due is sent. A tick event sends it in its own claim (DEDUCED, assumption log 11). -/
def execDelayTrigger (c : Fin 8) (s : State) : Host.Outcome State Fault Refusal :=
  .next (if s.ready ∧ (s.cr c).state = .active ∧ (s.cr c).delayDue then s.sendMessage c else s)

/-! ### Ends of writes -/

/-- The Completion Poster's oldest write in flight, whose end is the next to be reported (R154, R196). -/
def State.oldestWrite (s : State) : Option DmaRequest := s.host.dma.find? DmaRequest.ofPoster

/-- R16, R161: the mark belongs to this write: the one to ring `c` at `ringSlot`, with this number (DESIGN CHOICE, assumption log 23). -/
def PostingMark.belongsTo (m : PostingMark) (c : Fin 8) (ringSlot number : Nat) : Bool :=
  m.ring == c && m.ringSlot == ringSlot && m.write == number

/-- Slot `k`'s posting mark is removed. -/
def State.clearMark (s : State) (k : Nat) : State := s.setRow k { s.rowAt k with mark := none }

/-- R18, R161: a record write that ended done removes the posting mark that belongs to it, if the slot carries it. -/
def State.writeEnded (s : State) : DmaRequest → State
  | .recordWrite c ringSlot number _ _ (.expiry k _ _) =>
    if (s.markAt k).any (fun m => m.belongsTo c ringSlot number) then s.clearMark k else s
  | _ => s

/-- WRITE_DONE (R161, R168): the Poster's oldest write ends done; outside READY the report is discarded. -/
def execWriteDone (s : State) : Host.Outcome State Fault Refusal :=
  .next (match s.oldestWrite with
    | none => s
    | some q =>
      let s' := s.endDma DmaRequest.ofPoster
      if s.ready then s'.writeEnded q else s')

/-- R18, R64: slot `k`'s entry is restored from its mark, FIRED, with this pending expiry; the slot leaves the free list, the counts rise again, and
the mark goes. -/
def State.undoFree (s : State) (k : Nat) (m : PostingMark) (p : Option PendingExpiry) : State :=
  let s := s.setRow k { generation := m.generation, entry := some { m.entry with pendingExpiry := p }, mark := none }
  let s := { s with table := { s.table with freeList := s.table.freeList.filter (· != k) } }
  let s := s.updateDomain m.entry.domain (fun d => { d with inUse := d.inUse + 1 })
  s.updateCr m.entry.ring (fun r => { r with bound := r.bound + 1 })

/-- R64: a failed record merged into the pending expiry that the entry holds. -/
def mergeExpiry (held failed : PendingExpiry) : PendingExpiry :=
  { held with
    fireCount := saturate Config.maxCount16 (held.fireCount + failed.fireCount)
    missedCount := saturate Config.maxCount32 (held.missedCount + failed.missedCount)
    latestDeadline := max held.latestDeadline failed.latestDeadline
    holdover := held.holdover || failed.holdover }

/-- R64, R87: the slot carries a mark of the failed record's generation. Unless the domain is DESTROYING the entry is restored from it, with the
pending expiry as taken when the mark belongs to the failed write, and otherwise with the failed record's contents. It joins the deferred list of its own
ring, also where the failed record went to another (DESIGN CHOICE, assumption log 35). -/
def State.restoreMarked (s : State) (c : Fin 8) (ringSlot number k : Nat) (contents : PendingExpiry) (m : PostingMark) : State :=
  let own := m.belongsTo c ringSlot number
  if (s.domain m.entry.domain).state = .destroying then (if own then s.clearMark k else s)
  else (s.undoFree k m (if own then m.entry.pendingExpiry else some contents)).updateCr m.entry.ring (·.restoreFront k)

/-- R64: the slot is in use with the failed record's generation: the record's contents become its pending expiry again, or are merged into the one
it holds. It joins the deferred list of its own ring (R64), also where the failed record went to another, which can be when the slot is in use again
under the same generation after 255 frees, and R167 names the failed ring's list (DESIGN CHOICE, assumption log 35). -/
def State.restoreInUse (s : State) (k : Nat) (contents : PendingExpiry) (e : Entry) : State :=
  let p := match e.pendingExpiry with
    | none => contents
    | some held => mergeExpiry held contents
  (s.setEntry k { e with pendingExpiry := some p }).updateCr e.ring (·.restoreFront k)

/-- R64, R167: the fires of a failed expiry record are restored, or lost with their timer. -/
def State.restoreFires (s : State) (c : Fin 8) (ringSlot number k generation : Nat) (contents : PendingExpiry) : State :=
  match s.markAt k with
  | some m => if m.generation = generation then s.restoreMarked c ringSlot number k contents m else s
  | none =>
    match s.entryAt k with
    | some e => if s.generationAt k = generation then s.restoreInUse k contents e else s
    | none => s

/-- R166: the ring enters ERROR with cause BUS_ERROR, beginning an error episode, or stays in the ERROR it is in. -/
def CompletionRing.failWrite (r : CompletionRing) : CompletionRing :=
  if r.state = .active then
    { r with state := .error, cause := .busError, restoredRun := 0, unnotified := 0, delayCount := none }
  else r

/-- R166: a write to one of CR1 to CR7 has failed: ERROR, and RING_ERROR raised. The raising carries BUS_ERROR also when the ring stands in ERROR by
BAD_INDEX, which it keeps as its own cause (DESIGN CHOICE, assumption log 34). -/
def State.ringWriteFailed (s : State) (c : Fin 8) : State :=
  (s.updateCr c CompletionRing.failWrite).raise .ringError (.completionRing c) .busError

/-- R166, R167, R168: a write of the Poster has failed in READY. -/
def State.writeFailed (s : State) : DmaRequest → State
  | .recordWrite c ringSlot number _ _ origin =>
    if c = 0 then s.fatal .cr0WriteError
    else
      match origin with
      | .expiry k generation contents => (s.ringWriteFailed c).restoreFires c ringSlot number k generation contents
      | .completion | .event => s.ringWriteFailed c
  | .messageWrite c _ _ => if c = 0 then s.fatal .cr0WriteError else s.ringWriteFailed c
  | _ => s

/-- WRITE_FAILED (R166, R168): the Poster's oldest write ends in a bus error; outside READY the report is discarded. -/
def execWriteFailed (s : State) : Host.Outcome State Fault Refusal :=
  .next (match s.oldestWrite with
    | none => s
    | some q =>
      let s' := s.endDma DmaRequest.ofPoster
      if s.ready then s'.writeFailed q else s')

end Sys2Proof.Machine
end

