-- ==== Sys2Proof/Machine/RingCommands.lean ====
section
/-! DEFINITION. The ring commands (section 6.3) and what the ring chapters say of them: OPEN and CLOSE SUBMISSION RING (R120, R121, R145,
R146), OPEN, CLOSE and RESTART COMPLETION RING (R122 to R124, R169, R170). -/

namespace Sys2Proof.Machine

/-! ### OPEN SUBMISSION RING -/

/-- R145: the record of a ring that is opened. -/
def openedSubmission (r : CommandBits) : SubmissionRing :=
  { state := .active, base := recAddressA r, size := recLengthA r, head := 0, tail := 0, paired := recPairedFin r
    weight := recWeight r, cause := .none }

/-- R120: own checks and effect. -/
def openSubmissionBody (w : Taken) (s : State) : State :=
  checked .openSubmissionRing w
    [((s.sr (recRingFin w.record)).state != .closed, .ringOpen),
     ((s.cr (recPairedFin w.record)).state == .closed, .noSuchRing)]
    (fun s => (s.updateSr (recRingFin w.record) (fun _ => openedSubmission w.record), { status := .success })) s

/-- OPEN SUBMISSION RING (R120). -/
def execOpenSubmissionRing (s : State) : Host.Outcome State Fault Refusal :=
  .next (runCommand .openSubmissionRing (fun r _ => openSubmissionFieldsBad r) openSubmissionBody s)

/-! ### CLOSE SUBMISSION RING -/

/-- R134: the ring whose fetch is outstanding, from the start of the fetch until the executor takes its record or its read fails. -/
def FetchPath.source : FetchPath → Option (Fin 8)
  | .idle => none
  | .reading f => some f.source
  | .delivered f => some f.source

/-- R121: the completion's word A is the ring's error cause at the claim, coded as an event cause. -/
def closeSubmissionReply (ring : SubmissionRing) : Reply :=
  { status := .success, wordA := BitVec.ofNat 64 ring.cause.code }

/-- R146: ring `i` has become CLOSED; a read of it in flight notes that (DEDUCED, assumption log 31). -/
def FetchPath.noteClosed (i : Fin 8) : FetchPath → FetchPath
  | .reading f => .reading (if f.source = i then { f with ringClosed := true } else f)
  | p => p

/-- R146: ring `i` becomes CLOSED by its CLOSE. -/
def State.closeSubmission (s : State) (i : Fin 8) : State :=
  ({ s with fetcher := { s.fetcher with path := s.fetcher.path.noteClosed i } } : State).updateSr i (fun _ => SubmissionRing.reset)

/-- R121, R146: an ACTIVE ring whose fetch is outstanding becomes CLOSING and the completion is held; any other that is open becomes CLOSED and
the completion is handed. -/
def closeSubmissionBody (w : Taken) (s : State) : State :=
  let i := recRingFin w.record
  let ring := s.sr i
  match firstFailure [(ring.state == .closed || ring.state == .closing, .noSuchRing)] with
  | some status => s.answer w.ticket (refusal .closeSubmissionRing status w.record)
  | none =>
    if ring.state = .active ∧ s.fetcher.path.source = some i then
      let s := s.updateSr i (fun ring => { ring with state := .closing })
      let held : HeldCompletion := { closing := i, ring := w.ticket.ring, completion := (closeSubmissionReply ring).completion w.ticket }
      ({ s with executor := { s.executor with held := some held } } : State).endCommand w.ticket
    else (s.closeSubmission i).answer w.ticket (closeSubmissionReply ring)

/-- CLOSE SUBMISSION RING (R121). -/
def execCloseSubmissionRing (s : State) : Host.Outcome State Fault Refusal :=
  .next (runCommand .closeSubmissionRing (fun r _ => closeRingFieldsBad r) closeSubmissionBody s)

/-! ### OPEN COMPLETION RING -/

/-- R170: the record of a completion ring that is opened. -/
def openedCompletion (r : CommandBits) : CompletionRing :=
  { CompletionRing.reset with
    state := .active, base := recAddressA r, size := recLengthA r
    messageAddress := recAddressB r, messageData := recLengthB r, interrupts := recInterrupts r
    moderationCount := recModerationCount r, moderationDelay := recModerationDelay r }

/-- R122: own check and effect. -/
def openCompletionBody (w : Taken) (s : State) : State :=
  checked .openCompletionRing w [((s.cr (recRingFin w.record)).state != .closed, .ringOpen)]
    (fun s => (s.updateCr (recRingFin w.record) (fun _ => openedCompletion w.record), { status := .success })) s

/-- OPEN COMPLETION RING (R122). -/
def execOpenCompletionRing (s : State) : Host.Outcome State Fault Refusal :=
  .next (runCommand .openCompletionRing (fun r _ => openCompletionFieldsBad r) openCompletionBody s)

/-! ### CLOSE COMPLETION RING -/

/-- R182: the import job holds the ring, since a record naming it is not yet created. -/
def State.ringHeld (s : State) (c : Fin 8) : Bool := s.transfer.job.any (fun j => decide (0 < j.ringHolds[c]))

/-- R123, R170, R182: what makes a CLOSE COMPLETION RING find the ring in use: a submission ring paired with it, an entry bound to it, a posting
mark naming it, a deferred entry, a reserved slot, a write in flight, or a ring hold. -/
def State.ringInUse (s : State) (c : Fin 8) : Bool :=
  s.fetcher.rings.toList.any (fun q => q.state != .closed && q.paired == c) ||
    decide (0 < (s.cr c).bound) ||
    s.marks.any (fun p => p.2.entry.ring == c) ||
    (s.cr c).deferred != [] ||
    decide (0 < (s.cr c).reserved) ||
    s.host.dma.any (fun q => q.toRing c) ||
    s.ringHeld c

/-- R123: own checks and effect. -/
def closeCompletionBody (w : Taken) (s : State) : State :=
  checked .closeCompletionRing w
    [((s.cr (recRingFin w.record)).state == .closed, .noSuchRing),
     (s.ringInUse (recRingFin w.record), .ringInUse)]
    (fun s => (s.updateCr (recRingFin w.record) (fun _ => CompletionRing.reset), { status := .success })) s

/-- CLOSE COMPLETION RING (R123). -/
def execCloseCompletionRing (s : State) : Host.Outcome State Fault Refusal :=
  .next (runCommand .closeCompletionRing (fun r _ => closeRingFieldsBad r) closeCompletionBody s)

/-! ### RESTART COMPLETION RING -/

/-- R169, steps 1 to 4. -/
def CompletionRing.restarted (ring : CompletionRing) (base : DWord) : CompletionRing :=
  { ring with
    state := .active, base := if base = 0#64 then ring.base else base
    tail := 0, head := 0, unconsumed := 0, phase := true, cause := .none, restoredRun := 0 }

/-- R169, step 6: the queued command completions are taken for writing in queue order, each using its reservation. -/
def State.writeQueue (s : State) (c : Fin 8) : State :=
  (s.cr c).queue.foldl (fun s q => s.takeForWriting c true q .completion) (s.updateCr c (fun ring => { ring with queue := [] }))

/-- R169: the restart of a ring in ERROR, with the completion's fields (R124). The drain of R159 then runs by its own steps. A restart whose claim is
made after the device has left READY takes nothing for writing, and the queue is kept (R171). -/
def restartEffect (r : CommandBits) (s : State) : State × Reply :=
  let c := recRingFin r
  let ring := s.cr c
  let s := s.updateCr c (fun ring => ring.restarted (recAddressA r))
  (if s.ready then s.writeQueue c else s,
   { status := .success, count := BitVec.ofNat 32 ring.deferred.length, wordA := BitVec.ofNat 64 ring.cause.code })

/-- R124: own checks and effect. -/
def restartBody (w : Taken) (s : State) : State :=
  checked .restartCompletionRing w
    [((s.cr (recRingFin w.record)).state == .closed, .noSuchRing),
     ((s.cr (recRingFin w.record)).state == .active, .ringNotFailed)]
    (restartEffect w.record) s

/-- RESTART COMPLETION RING (R124). -/
def execRestartCompletionRing (s : State) : Host.Outcome State Fault Refusal :=
  .next (runCommand .restartCompletionRing (fun r _ => restartFieldsBad r) restartBody s)

end Sys2Proof.Machine
end

