-- ==== Sys2Proof/Machine/Timebase.lean ====
section
/-! DEFINITION. The Timebase (chapter 5): the tick event, the reference monitor, edge counting, holdover, and SET TIMEBASE. -/

namespace Sys2Proof.Machine

/-! ### The wheel's two tests of lag -/

/-- R42: the lag test of a tick event, after N has advanced. -/
def State.lagTest (s : State) : State :=
  if !s.wheel.overrun ∧ Config.overrunLag < s.timebase.time - s.wheel.time then
    ({ s with wheel := { s.wheel with overrun := true } } : State).raise .wheelOverrun .timingWheel .none
  else s

/-- R43: the caught-up test, at the end of a step and at SET TIMEBASE. A FAILED device makes no test (R44). In STOPPING the flag is cleared, and nothing
is raised, since events are raised while the device is READY (R164; DEDUCED, assumption log 17). -/
def State.caughtUpTest (s : State) : State :=
  if s.host.device ≠ .failed ∧ s.wheel.overrun ∧ s.wheel.time = s.timebase.time then
    let s' : State := { s with wheel := { s.wheel with overrun := false } }
    if s.ready then s'.raise .wheelCaughtUp .timingWheel .none else s'
  else s

/-! ### The tick event (R91) -/

/-- R91: "each one raises N by one"; at 2^64 − 1 N keeps its value. -/
def nextTime (now : Nat) : Nat := saturate Config.maxTick (now + 1)

/-- R162: a tick event raises a delay count that is present. -/
def CompletionRing.countTick (r : CompletionRing) : CompletionRing := { r with delayCount := r.delayCount.map (· + 1) }

/-- R162: the rings whose delay trigger is due. -/
def State.delayDueRings (s : State) : List Nat :=
  ((List.finRange 8).filter (fun c => (s.cr c).delayDue)).map (fun c => c.val)

/-- R91: a tick event, taken whole: N advances, the wheel makes its lag test (R42), and every running moderation delay counts the tick; a message
that falls due is sent in the same claim (R162). The spec gives the rings whose delays end at one tick no order. -/
def State.tick (s : State) : State :=
  let s := ({ s with timebase := { s.timebase with time := nextTime s.timebase.time } } : State).lagTest
  let s := { s with poster := { s.poster with rings := s.poster.rings.map CompletionRing.countTick } }
  s.forEach s.delayDueRings (fun c s => s.sendMessage (Fin.ofNat 8 c))

/-- TICK_EVENT (R91, R92, R100): in READY and FREE_RUNNING, a count of oscillator periods is complete. In LOCKED and HOLDOVER the tick is made
within the step whose edge or edge equivalent completes the divisor (R98, R99; `State.countEdge`), so no tick stands by itself there (DEDUCED,
assumption log 7). -/
def execTickEvent (s : State) : Host.Outcome State Fault Refusal :=
  .next (if s.ready ∧ s.timebase.state = .freeRunning then s.tick else s)

/-! ### Counting edges (R98) and edge equivalents (R99) -/

/-- R98, R99: the edge counter counts one; when it reaches the divisor, it returns to 0 and a tick event is made. -/
def State.countEdge (s : State) : State :=
  if s.timebase.divisor.getD 0 ≤ s.timebase.edgeCounter + 1 then
    ({ s with timebase := { s.timebase with edgeCounter := 0 } } : State).tick
  else { s with timebase := { s.timebase with edgeCounter := s.timebase.edgeCounter + 1 } }

/-- R99: several counts, one after another. -/
def State.countEdges : Nat → State → State
  | 0, s => s
  | n + 1, s => State.countEdges n s.countEdge

/-! ### The reference monitor (R95) -/

/-- R94: the states in which the monitor is active. -/
def TimebaseState.monitors : TimebaseState → Bool
  | .acquiring | .locked | .holdover => true
  | .stopped | .freeRunning => false

/-- R95: the interval lies between seven and nine eighths of the nominal period, both ends included. -/
def inTolerance (nominal interval : Nat) : Bool := decide (7 * nominal ≤ 8 * interval) && decide (8 * interval ≤ 9 * nominal)

/-- R95: the edge becomes the last edge and the loss window restarts at it. -/
def Timebase.seeEdge (b : Timebase) (elapsed : Nat) : Timebase :=
  { b with lastEdge := some (b.lossWindowStart + elapsed), lossWindowStart := b.lossWindowStart + elapsed }

/-- R95: the interval that an edge ends, from the last edge, when there is one. -/
def Timebase.interval (b : Timebase) (elapsed : Nat) : Option Nat :=
  b.lastEdge.map (fun last => b.lossWindowStart + elapsed - last)

/-- R97: this edge completes 1,024 consecutive in-tolerance intervals. -/
def Timebase.completesRun (b : Timebase) (elapsed : Nat) : Bool :=
  (b.interval elapsed).any (fun i => inTolerance (b.nominal.getD 0) i) && decide (Config.goodRunLength ≤ b.goodRunCount + 1)

/-- R95: the monitor judges an edge that does not complete a good run. -/
def Timebase.judge (b : Timebase) (elapsed : Nat) : Timebase :=
  match b.interval elapsed with
  | none => b
  | some i =>
    if inTolerance (b.nominal.getD 0) i then { b with goodRunCount := b.goodRunCount + 1, runLengthSum := b.runLengthSum + i }
    else { b with goodRunCount := 0, runLengthSum := 0 }

/-- R97: at the edge that completes a good run, the measured ratio is set from the sum, now with this interval, and the count and sum start
over. -/
def Timebase.completeRun (b : Timebase) (elapsed : Nat) : Timebase :=
  { b with measuredRatio := some (b.runLengthSum + (b.interval elapsed).getD 0), goodRunCount := 0, runLengthSum := 0 }

/-- R97, R98, R99: the good-run event, by the state it finds. In LOCKED the edge is counted toward the next tick as any other. -/
def State.goodRunEvent (s : State) (elapsed : Nat) : State :=
  let s' : State := { s with timebase := (s.timebase.completeRun elapsed).seeEdge elapsed }
  match s.timebase.state with
  | .acquiring => { s' with timebase := { s'.timebase with state := .locked, edgeCounter := 0, equivalentStart := none } }
  | .locked => s'.countEdge
  | .holdover =>
    ({ s' with timebase := { s'.timebase with state := .locked, equivalentStart := none } } : State).raise
      .referenceRestored .timebase .none
  | .stopped | .freeRunning => s

/-- R95, R98: an edge that completes no good run; in LOCKED it is counted, whatever its interval. -/
def State.plainEdge (s : State) (elapsed : Nat) : State :=
  let s' : State := { s with timebase := (s.timebase.judge elapsed).seeEdge elapsed }
  if s.timebase.state = .locked then s'.countEdge else s'

/-- REFIN_EDGE (R95): a rising edge that the active monitor sees. The edge that completes 1,024 in-tolerance intervals takes the good-run event
instead of the increment. -/
def execRefinEdge (elapsed : Nat) (s : State) : Host.Outcome State Fault Refusal :=
  .next (if s.ready ∧ s.timebase.state.monitors then
      if s.timebase.completesRun elapsed then s.goodRunEvent elapsed else s.plainEdge elapsed
    else s)

/-- GOOD_RUN (R97): the same edge under the good-run event's own name; an edge that completes no run is no good-run event. -/
def execGoodRun (elapsed : Nat) (s : State) : Host.Outcome State Fault Refusal :=
  .next (if s.ready ∧ s.timebase.state.monitors ∧ s.timebase.completesRun elapsed then s.goodRunEvent elapsed else s)

/-! ### Loss (R96) and holdover (R99) -/

/-- R96, R99: the length, in 1/1,024 monitor units, that has passed since the last edge at a loss in LOCKED: four nominal periods. -/
def Timebase.lossLength (b : Timebase) : Nat := Config.lossPeriods * b.nominal.getD 0 * 1024

/-- R96: what a loss does to the monitor. -/
def Timebase.loseReference (b : Timebase) : Timebase :=
  { b with
    goodRunCount := 0, runLengthSum := 0, lastEdge := none
    lossWindowStart := b.lossWindowStart + Config.lossPeriods * b.nominal.getD 0 }

/-- R99: the moment, in 1/1,024 monitor units, at which the edge equivalent in progress completes: one measured ratio, with its fraction, after the moment
from which it is reckoned. In section 5.5's example, 0.0390625 monitor units after the loss. -/
def Timebase.equivalentEnd (b : Timebase) : Nat := b.equivalentStart.getD 0 + b.measuredRatio.getD 0

/-- R99: the moment from which the edge equivalent in progress at a loss is reckoned: after the whole ones that have elapsed since the last edge. What
lies between it and the loss is the remainder carried forward. -/
def Timebase.startAtLoss (b : Timebase) : Nat :=
  1024 * b.lossWindowStart + b.measuredRatio.getD 0 * (b.lossLength / b.measuredRatio.getD 0)

/-- LOSS (R96, R99): no edge for four nominal periods. In LOCKED the state becomes HOLDOVER; the whole edge equivalents that have passed since the
last edge are counted at once, with the ticks they complete, and the remainder is carried; then REFERENCE_LOST is raised. -/
def execLoss (s : State) : Host.Outcome State Fault Refusal :=
  .next (if s.ready ∧ s.timebase.state.monitors then
      let s' : State := { s with timebase := s.timebase.loseReference }
      if s.timebase.state = .locked then
        let s' : State := { s' with timebase := { s'.timebase with
          state := .holdover, equivalentStart := some s.timebase.startAtLoss } }
        (State.countEdges (s.timebase.lossLength / s.timebase.measuredRatio.getD 0) s').raise .referenceLost .timebase .none
      else s'
    else s)

/-- EDGE_EQUIVALENT (R99): in HOLDOVER one measured ratio of monitor units has passed, and the edge counter counts one. The next equivalent is reckoned from
the moment at which this one completes, fraction and all, "so a long holdover does not gain or lose against the measured ratio". -/
def execEdgeEquivalent (s : State) : Host.Outcome State Fault Refusal :=
  .next (if s.ready ∧ s.timebase.state = .holdover then
      ({ s with timebase := { s.timebase with equivalentStart := some s.timebase.equivalentEnd } } : State).countEdge
    else s)

/-! ### SET TIMEBASE (R125, R101, R102) -/

/-- R102, steps 1 to 5: N is kept; source, divisor and nominal period become the command's; progress and monitor are cleared. The latch is no
part of these and stays. -/
def Timebase.setTo (b : Timebase) (r : CommandBits) : Timebase :=
  { Timebase.reset with
    time := b.time
    state := if TickSource.ofCode (recTimerKind r).toNat = some .internal then .freeRunning else .acquiring
    source := (TickSource.ofCode (recTimerKind r).toNat).getD .none
    divisor := some (recLengthA r)
    nominal := if TickSource.ofCode (recTimerKind r).toNat = some .internal then none else some (recLengthB r).toNat
    latch := b.latch }

/-- R101: a timer entry is in use, or an import reservation exists. -/
def State.timersPresent (s : State) : Bool := s.entries != [] || decide (0 < s.table.reservation)

/-- R102, R45: one claim of the Timebase and the Timing Wheel. -/
def setTimebaseEffect (r : CommandBits) (s : State) : State × Reply :=
  let s' := ({ s with
    timebase := s.timebase.setTo r
    wheel := { s.wheel with time := s.timebase.time } } : State).caughtUpTest
  (s', { status := .success, wordA := BitVec.ofNat 64 s'.timebase.time, flags := flagTimebase s'.timebase.state })

/-- R125: own check and effect. -/
def setTimebaseBody (w : Taken) (s : State) : State :=
  checked .setTimebase w [(s.timersPresent, .timersPresent)] (setTimebaseEffect w.record) s

/-- SET TIMEBASE (R125). -/
def execSetTimebase (s : State) : Host.Outcome State Fault Refusal :=
  .next (runCommand .setTimebase (fun r _ => setTimebaseFieldsBad r) setTimebaseBody s)

end Sys2Proof.Machine
end

