-- ==== Sys2Proof/Machine/Transfer.lean ====
section
/-! DEFINITION. The Transfer Unit (chapter 9): EXPORT DOMAIN, IMPORT DOMAIN and ABORT TRANSFER, the image (section 11.5), and the job's own
events: visits, ends of transfers, the release, and creations. -/

namespace Sys2Proof.Machine

/-! ### The image (R176, section 11.5) -/

/-- The little-endian field of `size` bytes at byte `offset` of a header, an entry record or a trailer. -/
def imageField (r : RecordBits) (offset size : Nat) : BitVec (8 * size) := r.extractLsb' (8 * offset) (8 * size)

/-- R176: the wrap-around sum of the eight 32-bit words of a header or an entry record. -/
def wordSum (r : RecordBits) : Word :=
  ((List.range 8).map (fun i => r.extractLsb' (32 * i) 32)).foldl (· + ·) 0#32

/-- Section 11.5: an image header. -/
def encodeHeader (domain : Fin 64) (count : Nat) (source : Byte) (divisor : Word) (start : Nat) : RecordBits :=
  0#64 ++ BitVec.ofNat 64 start ++ divisor ++ BitVec.ofNat 32 count ++ source ++ BitVec.ofNat 8 domain.val ++ Config.imageVersion ++
    Config.imageTag

/-- R178: the phase that an entry's record carries. -/
def imagePhase : Phase → Phase
  | .held => .held
  | .tripped => .tripped
  | .armed | .due | .fired => .armed

/-- R178: the deadline offset, bounded to 64 signed bits. -/
def imageOffset (deadline start : Nat) : Int := max (-(2 ^ 63)) (min (2 ^ 63 - 1) ((deadline : Int) - (start : Int)))

/-- R178, section 11.5: the record of an entry. -/
def encodeEntry (e : Entry) (start : Nat) : RecordBits :=
  e.cookie ++ BitVec.ofNat 32 e.totalFires ++ BitVec.ofNat 32 (e.period.getD 0) ++ BitVec.ofInt 64 (imageOffset e.deadline start) ++
    0#16 ++ BitVec.ofNat 16 (e.fireLimit.getD 0) ++ BitVec.ofNat 8 e.ring.val ++ BitVec.ofNat 8 e.faultOption.toNat ++
    BitVec.ofNat 8 (imagePhase e.phase).code ++ BitVec.ofNat 8 e.kind.code

/-- Section 11.5: the trailer, in the low 8 bytes. -/
def encodeTrailer (sum : Word) (count : Nat) : RecordBits := 0#192 ++ BitVec.ofNat 32 count ++ sum

/-- An entry record's kind. -/
def imageKind (r : RecordBits) : Option TimerKind := TimerKind.ofCode (imageField r 0 1).toNat

/-- An entry record's phase code. -/
def imagePhaseCode (r : RecordBits) : Nat := (imageField r 1 1).toNat

/-- An entry record's fault option, for a well-formed record. -/
def imageFault (r : RecordBits) : Bool := imageField r 2 1 != 0#8

/-- An entry record's completion ring number. -/
def imageRing (r : RecordBits) : Nat := (imageField r 3 1).toNat

/-- The ring of a well-formed entry record. -/
def imageRingFin (r : RecordBits) : Fin 8 := Fin.ofNat 8 (imageRing r)

/-- An entry record's remaining fire limit, 0 for none. -/
def imageFireLimit (r : RecordBits) : Nat := (imageField r 4 2).toNat

/-- An entry record's deadline offset. -/
def imageDeadlineOffset (r : RecordBits) : Int := (imageField r 8 8).toInt

/-- An entry record's period, 0 for none. -/
def imagePeriod (r : RecordBits) : Nat := (imageField r 16 4).toNat

/-- R176: the record is well formed. -/
def wellFormedRecord (r : RecordBits) : Bool :=
  match imageKind r with
  | none => false
  | some k =>
    (imagePhaseCode r == Phase.armed.code || imagePhaseCode r == Phase.held.code ||
      (imagePhaseCode r == Phase.tripped.code && k == .guard)) &&
    decide ((imageField r 2 1).toNat ≤ 1) && !badIoRing (imageRing r) && !misfit k (imagePeriod r) (imageFireLimit r) (imageFault r)

/-- R180: the header is one that pass 1 goes on with, for an image of this length. -/
def headerGood (h : RecordBits) (length : Nat) : Bool :=
  imageField h 0 4 == Config.imageTag && imageField h 4 2 == Config.imageVersion &&
    decide ((imageField h 8 4).toNat ≤ Config.tableSize) && decide (40 + 32 * (imageField h 8 4).toNat ≤ length)

/-! ### The job's transfers (R175) -/

/-- The job record, if there is one, changed by `f`. -/
def State.updateJob (s : State) (f : Job → Job) : State := { s with transfer := { job := s.transfer.job.map f } }

/-- A transfer of the Transfer Unit is in flight, its own job's or an ended one's. -/
def State.transferring (s : State) : Bool := s.host.dma.any DmaRequest.ofTransfer

/-- Section 11.5: the address of entry record `i`; record n's is the trailer's. -/
def Job.recordAddress (j : Job) (i : Nat) : DWord := j.bufferAddress + BitVec.ofNat 64 (32 + 32 * i)

/-- R177: the header of an EXPORT's image. -/
def Job.header (j : Job) : RecordBits := encodeHeader j.domain j.recordCount j.imageSource j.imageDivisor j.exportStart

/-- The job's first transfer: the write or the read of the header. -/
def Job.firstTransfer (j : Job) : DmaRequest :=
  match j.stage.kind with
  | .exportJob => .transferWrite true .header j.bufferAddress 32 j.header
  | .importJob => .transferRead true .header j.bufferAddress 32

/-- R177: the write of the trailer, after the last record. -/
def Job.trailerWrite (j : Job) : DmaRequest :=
  .transferWrite true .trailer (j.recordAddress j.recordsDone) 8 (encodeTrailer j.runningSum j.recordCount)

/-- R180, R183: the read of the next entry record, or of the trailer when all have been read. -/
def Job.nextRead (j : Job) : DmaRequest :=
  if j.position < j.recordCount then .transferRead true .entryRecord (j.recordAddress j.position) 32
  else .transferRead true .trailer (j.recordAddress j.recordCount) 8

/-- R177: the words of an EXPORT's header are added to the running sum as its write is issued; an IMPORT's are added when they have been read. -/
def Job.begun (j : Job) : Job :=
  match j.stage.kind with
  | .exportJob => { j with runningSum := j.runningSum + wordSum j.header }
  | .importJob => j

/-- The job's next transfer, chosen by `q` from the job record as it now stands, is issued. -/
def State.issue (s : State) (q : Job → DmaRequest) : State :=
  match s.transfer.job with
  | none => s
  | some j => s.pushDma (q j)

/-! ### The end of a job (R174) -/

/-- R175: the transfer belongs no more to a job. -/
def DmaRequest.orphan : DmaRequest → DmaRequest
  | .transferRead _ item a n => .transferRead false item a n
  | .transferWrite _ item a n data => .transferWrite false item a n data
  | q => q

/-- The transfer belongs to the present job. -/
def DmaRequest.isLive : DmaRequest → Bool
  | .transferRead live .. | .transferWrite live .. => live
  | _ => false

/-- R174: the job ends: its record and its ring holds go, the domain is no longer busy with it, a creation claim still waiting is not taken (R186),
a transfer in flight no longer concerns a job (R175), and the completion is handed. -/
def State.endJob (s : State) (j : Job) (status : Status) (count : Nat) (wordA : DWord) : State :=
  let s := s.updateDomain j.domain (fun d => { d with busy := .none })
  let s : State := { s with
    transfer := { job := none }
    table := { s.table with waiting := s.table.waiting.filter (· != .creation) }
    host := { s.host with dma := s.host.dma.map DmaRequest.orphan } }
  s.reply j.ticket { status := status, count := BitVec.ofNat 32 count, wordA := wordA }

/-- R185: every entry that carries the import mark is freed, and what remains of the reservation is released with its units of the domain's
in-use count. -/
def State.rollback (s : State) (d : Fin 64) : State :=
  let s := s.freeAll ((s.entries.filter (fun p => p.2.importMark)).map Prod.fst)
  let left := s.table.reservation
  let s : State := { s with table := { s.table with reservation := 0 } }
  s.updateDomain d (fun rec => { rec with inUse := rec.inUse - left })

/-- R186, R187: the job ends with an error status. An IMPORT in CREATING is rolled back. The count is an EXPORT's records done, and 0 for an
IMPORT. -/
def State.failJob (s : State) (j : Job) (status : Status) : State :=
  match j.stage with
  | .writing | .releasing => s.endJob j status j.recordsDone 0#64
  | .verifying => s.endJob j status 0 0#64
  | .creating => (s.rollback j.domain).endJob j status 0 0#64

/-! ### EXPORT DOMAIN (R130, R177) -/

/-- R177: the exported set: the domain's entries in use and not FIRED, in slot order. -/
def State.exportedSet (s : State) (d : Fin 64) : List Nat :=
  (s.entries.filter (fun p => p.2.domain == d && p.2.phase != .fired)).map Prod.fst

/-- The new job that a command's record asks for. The fields that R174 gives to the other kind only (handle list and pass 1 sum; release, export start), and an
IMPORT's record count before its header is read and its pass 1 sum before pass 1 has verified it, are held as 0, or as no (DESIGN CHOICE, assumption
log 14). -/
def newJob (t : Ticket) (r : CommandBits) (stage : JobStage) : Job :=
  { stage := stage, domain := recDomainFin r, bufferAddress := recAddressA r, bufferLength := recLengthA r
    handleAddress := if stage.kind = .importJob then recAddressB r else 0#64
    handleLength := if stage.kind = .importJob then (recLengthB r).toNat else 0
    release := false, exportStart := 0, recordCount := 0, position := 0, recordsDone := 0, runningSum := 0#32, pass1Sum := 0#32
    ticket := t, imageSource := 0#8, imageDivisor := 0#32, illFormed := false
    ringRecords := Vector.replicate 8 0, ringHolds := Vector.replicate 8 0, creation := none }

/-- R177: the job record of an accepted EXPORT. -/
def exportJob (t : Ticket) (r : CommandBits) (s : State) : Job :=
  { newJob t r .writing with
    release := recRelease r, exportStart := s.timebase.time, recordCount := (s.domain (recDomainFin r)).inUse
    imageSource := BitVec.ofNat 8 s.timebase.source.code, imageDivisor := BitVec.ofNat 32 (s.timebase.divisor.getD 0) }

/-- R175, R177: the job issues its first transfer. -/
def State.beginTransfers (s : State) : State := (s.updateJob Job.begun).issue Job.firstTransfer

/-- R174, R175: a job starts: the domain is marked busy with it, and its first transfer is issued, unless one of an ended job is still in flight. A job
whose command's claim is made after the device has left READY issues none (R188). -/
def State.startJob (s : State) (j : Job) (busy : TransferBusy) : State :=
  let s := s.updateDomain j.domain (fun d => { d with busy := busy })
  let s : State := { s with transfer := { job := some j } }
  if s.ready ∧ !s.transferring then s.beginTransfers else s

/-- R130: EXPORT DOMAIN's own checks, in order. -/
def exportChecks (r : CommandBits) (s : State) : List (Bool × Status) :=
  let d := s.domain (recDomainFin r)
  [(d.state == .free, .noSuchDomain),
   (d.isBusy, .domainBusy),
   (s.transfer.job.isSome, .transferBusy),
   (d.pauseDepth == 0, .domainNotPaused),
   (s.entries.any (fun p => p.2.domain == recDomainFin r && p.2.pendingExpiry.isSome), .expiriesPending),
   (decide (recLengthA r < 32 + 32 * d.inUse + 8), .bufferTooSmall)]

/-- R130: the claim of an EXPORT. -/
def exportBody (w : Taken) (s : State) : State :=
  checkedJob .exportDomain w (exportChecks w.record s) (fun s => s.startJob (exportJob w.ticket w.record s) .exporting) s

/-- EXPORT DOMAIN (R130). -/
def execExportDomain (s : State) : Host.Outcome State Fault Refusal :=
  .next (runCommand .exportDomain (fun r _ => exportFieldsBad r) exportBody s)

/-! ### IMPORT DOMAIN (R131, R180) -/

/-- R131: IMPORT DOMAIN's own checks, in order. -/
def importChecks (r : CommandBits) (s : State) : List (Bool × Status) :=
  let d := s.domain (recDomainFin r)
  [(d.state == .free, .noSuchDomain),
   (d.isBusy, .domainBusy),
   (s.transfer.job.isSome, .transferBusy),
   (d.pauseDepth == 0, .domainNotPaused),
   (s.timebase.state == .stopped, .timebaseStopped)]

/-- R131: the claim of an IMPORT. -/
def importBody (w : Taken) (s : State) : State :=
  checkedJob .importDomain w (importChecks w.record s) (fun s => s.startJob (newJob w.ticket w.record .verifying) .importing) s

/-- IMPORT DOMAIN (R131). -/
def execImportDomain (s : State) : Host.Outcome State Fault Refusal :=
  .next (runCommand .importDomain (fun r _ => importFieldsBad r) importBody s)

/-! ### ABORT TRANSFER (R132, R186) -/

/-- R132: the job, if one exists, ends ABORTED and hands its completion; then the ABORT's own is handed. Outside READY the Transfer Unit does not end its
job (R188), so an ABORT taken before stays EXECUTING (DEDUCED, assumption log 18). -/
def abortBody (w : Taken) (s : State) : State :=
  match s.transfer.job with
  | none => s.answer w.ticket (refusal .abortTransfer .noTransfer w.record)
  | some j => if s.ready then (s.failJob j .aborted).answer w.ticket { status := .success } else s

/-- ABORT TRANSFER (R132): no field checks. -/
def execAbortTransfer (s : State) : Host.Outcome State Fault Refusal :=
  .next (runCommand .abortTransfer (fun _ _ => false) abortBody s)

/-! ### EXPORT_VISIT (R178) -/

/-- R178: slot `k` holds an entry of the exported set of the job's domain. -/
def State.exported (s : State) (j : Job) (k : Nat) : Option Entry :=
  (s.entryAt k).filter (fun e => e.domain == j.domain && e.phase != .fired)

/-- R178: the write of an entry's record, at the next record position. -/
def Job.recordWrite (j : Job) (e : Entry) : DmaRequest :=
  .transferWrite true .entryRecord (j.recordAddress j.recordsDone) 32 (encodeEntry e j.exportStart)

/-- R178: one visit of a job in WRITING. An entry of the exported set is summed and its record's write issued; any other slot is passed by, and
the trailer's write follows a visit that ends the records stage with nothing in flight. -/
def State.visit (s : State) (j : Job) : State :=
  match s.exported j j.position with
  | some e =>
    (s.updateJob (fun j => { j with
      position := j.position + 1, runningSum := j.runningSum + wordSum (encodeEntry e j.exportStart) })).pushDma (j.recordWrite e)
  | none =>
    let s := s.updateJob (fun j => { j with position := j.position + 1 })
    if j.position + 1 = Config.tableSize then s.issue Job.trailerWrite else s

/-- EXPORT_VISIT (R178): in READY, with no transfer in flight, an export in its records stage visits the slot at its position. -/
def execExportVisit (s : State) : Host.Outcome State Fault Refusal :=
  .next (match s.transfer.job with
    | none => s
    | some j =>
      if s.ready ∧ !s.transferring ∧ j.stage = .writing ∧ j.position < Config.tableSize then s.visit j else s)

/-! ### TRANSFER_WRITE_DONE (R177, R178, R183) -/

/-- R177: an export whose records are all written issues its trailer's write. -/
def State.trailerIfLast (s : State) (j : Job) : State :=
  if j.position = Config.tableSize then s.issue Job.trailerWrite else s

/-- The job's write of `item` has ended without error. -/
def State.jobWriteDone (s : State) (j : Job) : TransferItem → State
  | .header => s
  | .entryRecord => (s.updateJob (fun j => { j with recordsDone := j.recordsDone + 1 })).trailerIfLast j
  | .trailer =>
    if j.release then s.updateJob (fun j => { j with stage := .releasing })
    else s.endJob j .success j.recordCount (j.runningSum.setWidth 64)
  | .handle => s.issue Job.nextRead

/-- R175: the end of an ended job's transfer lets a job accepted since then issue its first one. -/
def State.orphanEnded (s : State) : State := s.beginTransfers

/-- TRANSFER_WRITE_DONE: the Transfer Unit's write ends done. Outside READY the end is discarded (R188), and so is that of an ended job's
(R175). -/
def execTransferWriteDone (s : State) : Host.Outcome State Fault Refusal :=
  .next (match s.host.dma.find? DmaRequest.isTransferWrite with
    | some (.transferWrite live item _ _ _) =>
      let s' := s.endDma DmaRequest.isTransferWrite
      if s.ready then
        if live then
          match s.transfer.job with
          | none => s'
          | some j => s'.jobWriteDone j item
        else s'.orphanEnded
      else s'
    | _ => s)

/-! ### EXPORT_RELEASE (R179) -/

/-- EXPORT_RELEASE (R179): in READY, an export in RELEASING frees the exported set and ends SUCCESS. -/
def execExportRelease (s : State) : Host.Outcome State Fault Refusal :=
  .next (match s.transfer.job with
    | none => s
    | some j =>
      if s.ready ∧ j.stage = .releasing then
        (s.freeAll (s.exportedSet j.domain)).endJob j .success j.recordCount (j.runningSum.setWidth 64)
      else s)

/-! ### TRANSFER_READ_DONE (R180 to R184) -/

/-- R180: the header in pass 1: its words are summed, and a good one gives n, the tick source and the divisor. -/
def State.verifyHeader (s : State) (j : Job) (h : RecordBits) : State :=
  if headerGood h j.bufferLength then
    (s.updateJob (fun j => { j with
      runningSum := j.runningSum + wordSum h, recordCount := (imageField h 8 4).toNat
      imageSource := imageField h 7 1, imageDivisor := imageField h 12 4 })).issue Job.nextRead
  else s.endJob j .imageFormat 0 0#64

/-- R180: an entry record in pass 1: its words are summed, and it is noted whether it is well formed, and the ring it then names. -/
def Job.verifyRecord (j : Job) (r : RecordBits) : Job :=
  { j with
    runningSum := j.runningSum + wordSum r
    position := j.position + 1
    illFormed := j.illFormed || !wellFormedRecord r
    ringRecords := if wellFormedRecord r then updateAt j.ringRecords (imageRingFin r) (· + 1) else j.ringRecords }

/-- R181, check 3: the image differs from the present Timebase, or some record names a ring that is CLOSED. -/
def State.mismatch (s : State) (j : Job) : Bool :=
  j.imageSource != BitVec.ofNat 8 s.timebase.source.code || j.imageDivisor != BitVec.ofNat 32 (s.timebase.divisor.getD 0) ||
    (List.finRange 8).any (fun c => decide (0 < j.ringRecords[c]) && (s.cr c).state == .closed)

/-- R181, R182: the checks of pass 1 at its trailer, in order. -/
def pass1Checks (s : State) (j : Job) (trailer : RecordBits) : List (Bool × Status) :=
  let d := s.domain j.domain
  [((imageField trailer 4 4).toNat != j.recordCount || j.illFormed, .imageFormat),
   (imageField trailer 0 4 != j.runningSum, .imageChecksum),
   (s.mismatch j, .imageMismatch),
   (decide (j.handleLength < 4 * j.recordCount), .bufferTooSmall),
   (decide (d.quota.getD 0 < d.inUse + s.marksNaming j.domain + j.recordCount), .quotaExceeded),
   (decide (s.unmarkedFree < s.table.reservation + j.recordCount), .noEntries)]

/-- R182: the reservation claim, with the ring holds of R181, and the start of pass 2, which reads the header again. -/
def State.reserve (s : State) (j : Job) : State :=
  let s : State := { s with table := { s.table with reservation := s.table.reservation + j.recordCount } }
  let s := s.updateDomain j.domain (fun d => { d with inUse := d.inUse + j.recordCount })
  (s.updateJob (fun j => { j with
    stage := .creating, position := 0, recordsDone := 0, pass1Sum := j.runningSum, runningSum := 0#32
    ringHolds := j.ringRecords })).issue Job.firstTransfer

/-- R181: the end of pass 1. -/
def State.verifyTrailer (s : State) (j : Job) (trailer : RecordBits) : State :=
  match firstFailure (pass1Checks s j trailer) with
  | some status => s.endJob j status 0 0#64
  | none => s.reserve j

/-- R13: a creation claim that cannot be taken yet begins to wait. -/
def State.waitCreation (s : State) : State :=
  if s.table.waiting.contains .creation then s
  else { s with table := { s.table with waiting := s.table.waiting ++ [.creation] } }

/-- R13: a creation claim has to wait: the free-list head carries a mark, or another allocation claim began to wait before it. (The reservation
keeps a slot for every creation, so the list is never empty here; were it so, the claim would have nothing to take.) -/
def State.creationWaits (s : State) : Bool :=
  s.table.freeList.isEmpty || s.headMarked || s.table.waiting.head? == some .arm

/-- R183: an entry record in pass 2: its words are summed; one that is not well formed ends the job IMAGE_CHANGED; for any other a creation claim
is made. -/
def State.createRecord (s : State) (j : Job) (r : RecordBits) : State :=
  if wellFormedRecord r then
    let s := s.updateJob (fun j => { j with
      runningSum := j.runningSum + wordSum r, position := j.position + 1, creation := some r })
    if s.creationWaits then s.waitCreation else s
  else s.failJob j .imageChanged

/-- R184: the import mark is cleared from every entry. -/
def State.clearImportMarks (s : State) : State :=
  { s with table := { s.table with
      rows := mapRows (fun r => { r with entry := r.entry.map (fun e => { e with importMark := false }) }) s.table.rows } }

/-- R184: the comparison at the trailer of pass 2. The trailer's own words are not added to the running sum, and nothing is read from them: R183's "each
word read" is taken of the header and the records, since R176 leaves the trailer out of the checksum, which pass 1 has verified, and R184 compares no field
of it. So a changed trailer is not detected (DEDUCED, assumption log 37). -/
def State.createTrailer (s : State) (j : Job) : State :=
  if j.runningSum = j.pass1Sum then s.clearImportMarks.endJob j .success j.recordCount (j.runningSum.setWidth 64)
  else s.failJob j .imageChanged

/-- The job's read of `item` has ended without error with `data`. -/
def State.jobReadDone (s : State) (j : Job) (item : TransferItem) (data : RecordBits) : State :=
  match j.stage, item with
  | .verifying, .header => s.verifyHeader j data
  | .verifying, .entryRecord => (s.updateJob (·.verifyRecord data)).issue Job.nextRead
  | .verifying, .trailer => s.verifyTrailer j data
  | .creating, .header => (s.updateJob (fun j => { j with runningSum := j.runningSum + wordSum data })).issue Job.nextRead
  | .creating, .entryRecord => s.createRecord j data
  | .creating, .trailer => s.createTrailer j
  | _, _ => s

/-- TRANSFER_READ_DONE: the Transfer Unit's read ends done with `data`. Outside READY the end is discarded (R188), and so is that of an ended
job's (R175). -/
def execTransferReadDone (data : RecordBits) (s : State) : Host.Outcome State Fault Refusal :=
  .next (match s.host.dma.find? DmaRequest.isTransferRead with
    | some (.transferRead live item _ _) =>
      let s' := s.endDma DmaRequest.isTransferRead
      if s.ready then
        if live then
          match s.transfer.job with
          | none => s'
          | some j => s'.jobReadDone j item data
        else s'.orphanEnded
      else s'
    | _ => s)

/-! ### IMPORT_CREATION (R183) -/

/-- R183: the deadline of an imported entry, N plus the offset, bounded to a tick value. -/
def importDeadline (now : Nat) (offset : Int) : Nat := min Config.maxTick ((now : Int) + offset).toNat

/-- R183: the entry that a creation makes of a record; its phase and location are set by where it is put. -/
def importedEntry (r : RecordBits) (domain : Fin 64) (now : Nat) : Entry :=
  { phase := .held
    kind := (imageKind r).getD .oneshot
    domain := domain, ring := imageRingFin r
    deadline := importDeadline now (imageDeadlineOffset r)
    period := if imagePeriod r = 0 then none else some (imagePeriod r)
    fireLimit := if imageFireLimit r = 0 then none else some (imageFireLimit r)
    cookie := imageField r 24 8, faultOption := imageFault r, totalFires := (imageField r 20 4).toNat
    pendingExpiry := none, importMark := true, location := none }

/-- R183: the entry is put where its record's phase and its deadline send it. -/
def State.putImported (s : State) (k : Nat) (phaseCode : Nat) (e : Entry) : State :=
  if phaseCode = Phase.tripped.code then (s.setEntry k { e with phase := .tripped }).countTrip e.faultOption
  else if s.wheel.time < e.deadline then s.place k e
  else (s.setEntry k { e with phase := .held }).updateDomain e.domain (fun d => { d with held := d.held ++ [k] })

/-- R182, R183: one record fewer holds its ring, one entry more is created, and the claim is no longer under way. The hold that ends is the one on the ring
that the record names in pass 2; where pass 1 read another ring there, that one's hold stands to the job's end (DESIGN CHOICE, assumption log 21). -/
def Job.created (j : Job) (r : RecordBits) : Job :=
  { j with recordsDone := j.recordsDone + 1, ringHolds := updateAt j.ringHolds (imageRingFin r) (· - 1), creation := none }

/-- R183, item 3: the write of a new handle. -/
def Job.handleWrite (j : Job) (handle : Word) : DmaRequest :=
  .transferWrite true .handle (j.handleAddress + BitVec.ofNat 64 (4 * j.recordsDone)) 4 (handle.setWidth 256)

/-- R183: a creation claim, with the write of the handle that follows it. -/
def State.create (s : State) (j : Job) (r : RecordBits) : State :=
  let k := s.table.freeList.headD 0
  let e := importedEntry r j.domain s.timebase.time
  let handle := handleOf k (s.generationAt k)
  let s := s.allocateHead e.ring
  let s : State := { s with table := { s.table with
    reservation := s.table.reservation - 1, waiting := s.table.waiting.filter (· != .creation) } }
  ((s.putImported k (imagePhaseCode r) e).updateJob (·.created r)).pushDma (j.handleWrite handle)

/-- IMPORT_CREATION (R13, R183): in READY, the creation claim under way is taken once the free-list head carries no mark and no ARM began to wait
before it; until then it waits. -/
def execImportCreation (s : State) : Host.Outcome State Fault Refusal :=
  .next (match s.transfer.job with
    | none => s
    | some j =>
      match j.creation with
      | none => s
      | some r =>
        if s.ready then
          if s.creationWaits then s.waitCreation else s.create j r
        else s)

/-! ### TRANSFER_BUS_ERROR (R187) -/

/-- TRANSFER_BUS_ERROR (R187): the Transfer Unit's transfer ends in a bus error, and its job ends BUS_ERROR. Outside READY the end is discarded
(R188), and so is that of an ended job's (R175). -/
def execTransferBusError (s : State) : Host.Outcome State Fault Refusal :=
  .next (match s.host.dma.find? DmaRequest.ofTransfer with
    | none => s
    | some q =>
      let s' := s.endDma DmaRequest.ofTransfer
      if s.ready then
        if q.isLive then
          match s.transfer.job with
          | none => s'
          | some j => s'.failJob j .busError
        else s'.orphanEnded
      else s')

end Sys2Proof.Machine
end

