-- ==== Sys2Proof/Machine/WheelSteps.lean ====
section
/-! DEFINITION. The wheel step (section 2.5), one command for its beginning, one for each entry it moves, and one for its end. Which stage
the step has reached is read from what it has still to move (DESIGN CHOICE, assumption log 16). -/

namespace Sys2Proof.Machine

/-- R33: how many entries at the front of the overflow list the step's sweep has still to re-place. -/
def Wheel.sweepLeft (w : Wheel) : Nat :=
  match w.step with
  | none => 0
  | some p => p.sweepLeft

/-- R32, stage 3, R34: the cascade of level L concerns this step, and its slot still holds an entry. -/
def Wheel.cascadeLeft (w : Wheel) (l : Fin 4) : Bool :=
  w.time % 64 ^ l.val == 0 && w.slots[l][digit l.val w.time] != []

/-- R32, stage 3: the level whose cascade is under way: the highest of 3, 2, 1 that has an entry left. -/
def Wheel.cascadeLevel (w : Wheel) : Option (Fin 4) := [3, 2, 1].find? (fun l => w.cascadeLeft l)

/-- R35: the L0 slot at W. -/
def Wheel.emptyingSlot (w : Wheel) : List Nat := w.slots[(0 : Fin 4)][digit 0 w.time]

/-- Slot `k`'s entry leaves its place and is placed again by its unchanged deadline against W, in one claim (R28, R30, R38). -/
def State.replace (s : State) (k : Nat) : State :=
  match s.entryAt k with
  | none => s
  | some e => (s.leavePlace k e).place k e

/-- WHEEL_STEP (R32, stage 1): with W below N, in READY and no step in progress, a step begins by setting W to W+1. At a multiple of 2^24 the
overflow list as it stands is what the sweep will re-place (R33). -/
def execWheelStep (s : State) : Host.Outcome State Fault Refusal :=
  .next (if s.ready ∧ s.wheel.time < s.timebase.time ∧ s.wheel.step = none then
      let w := s.wheel.time + 1
      let sweep := if w % 2 ^ 24 = 0 then s.wheel.overflow.length else 0
      { s with wheel := { s.wheel with time := w, step := some { sweepLeft := sweep } } }
    else s)

/-- OVERFLOW_SWEEP (R33): the head of the overflow list, placed there before the sweep began, is re-placed against W. -/
def execOverflowSweep (s : State) : Host.Outcome State Fault Refusal :=
  .next (if 0 < s.wheel.sweepLeft then
      match s.wheel.overflow with
      | [] => s
      | k :: _ => s.replace k
    else s)

/-- CASCADE (R34): after the sweep, the head of the slot being cascaded is re-placed against W. -/
def execCascade (s : State) : Host.Outcome State Fault Refusal :=
  .next (if s.wheel.step ≠ none ∧ s.wheel.sweepLeft = 0 then
      match s.wheel.cascadeLevel with
      | none => s
      | some l =>
        match s.wheel.slots[l][digit l.val s.wheel.time] with
        | [] => s
        | k :: _ => s.replace k
    else s)

/-- R35: slot `k`'s entry moves to the tail of the due queue and becomes DUE. -/
def State.moveDue (s : State) (k : Nat) (e : Entry) : State :=
  let s := (s.leavePlace k e).setEntry k { e with phase := .due, location := some .dueQueue }
  { s with wheel := s.wheel.append k .dueQueue }

/-- L0_EMPTYING (R35): after the cascades, the head of the L0 slot at W moves to the due queue. -/
def execL0Emptying (s : State) : Host.Outcome State Fault Refusal :=
  .next (if s.wheel.step ≠ none ∧ s.wheel.sweepLeft = 0 ∧ s.wheel.cascadeLevel = none then
      match s.wheel.emptyingSlot with
      | [] => s
      | k :: _ =>
        match s.entryAt k with
        | none => s
        | some e => s.moveDue k e
    else s)

/-- STEP_END (R32, R43): when every stage is complete the step ends, and the wheel makes the caught-up test. -/
def execStepEnd (s : State) : Host.Outcome State Fault Refusal :=
  .next (if s.wheel.step ≠ none ∧ s.wheel.sweepLeft = 0 ∧ s.wheel.cascadeLevel = none ∧ s.wheel.emptyingSlot = [] then
      ({ s with wheel := { s.wheel with step := none } } : State).caughtUpTest
    else s)

end Sys2Proof.Machine
end

