-- ==== Sys2Proof/Machine/Dispatch.lean ====
section
/-! DEFINITION. What each command does: one direct call of its meaning. -/

namespace Sys2Proof.Machine

/-- The effect of a command on everything but the queue of waiting commands. -/
def exec (i : Instr) (s : State) : Host.Outcome State Fault Refusal :=
  match i with
  | .arm => Sys2Proof.Machine.execArm s
  | .rearm => Sys2Proof.Machine.execRearm s
  | .cancel => Sys2Proof.Machine.execCancel s
  | .kick => Sys2Proof.Machine.execKick s
  | .query => Sys2Proof.Machine.execQuery s
  | .readStatus => Sys2Proof.Machine.execReadStatus s
  | .openSubmissionRing => Sys2Proof.Machine.execOpenSubmissionRing s
  | .closeSubmissionRing => Sys2Proof.Machine.execCloseSubmissionRing s
  | .openCompletionRing => Sys2Proof.Machine.execOpenCompletionRing s
  | .closeCompletionRing => Sys2Proof.Machine.execCloseCompletionRing s
  | .restartCompletionRing => Sys2Proof.Machine.execRestartCompletionRing s
  | .setTimebase => Sys2Proof.Machine.execSetTimebase s
  | .createDomain => Sys2Proof.Machine.execCreateDomain s
  | .destroyDomain => Sys2Proof.Machine.execDestroyDomain s
  | .pauseDomain => Sys2Proof.Machine.execPauseDomain s
  | .resumeDomain => Sys2Proof.Machine.execResumeDomain s
  | .exportDomain => Sys2Proof.Machine.execExportDomain s
  | .importDomain => Sys2Proof.Machine.execImportDomain s
  | .abortTransfer => Sys2Proof.Machine.execAbortTransfer s
  | .invalidKind => Sys2Proof.Machine.execInvalidKind s
  | .allocation => Sys2Proof.Machine.execAllocation s
  | .srTailWrite ring value => Sys2Proof.Machine.execSrTailWrite ring value s
  | .crHeadWrite ring value => Sys2Proof.Machine.execCrHeadWrite ring value s
  | .enableSet => Sys2Proof.Machine.execEnableSet s
  | .enableClear => Sys2Proof.Machine.execEnableClear s
  | .deviceReset => Sys2Proof.Machine.execDeviceReset s
  | .powerOnReset => Sys2Proof.Machine.execPowerOnReset s
  | .deviceTimeLowRead offset width => Sys2Proof.Machine.execDeviceTimeLowRead s offset width
  | .registerWrite offset width value => Sys2Proof.Machine.execRegisterWrite offset width value s
  | .disable => Sys2Proof.Machine.execDisable s
  | .arbitration => Sys2Proof.Machine.execArbitration s
  | .recordArrival record => Sys2Proof.Machine.execRecordArrival record s
  | .readBusError => Sys2Proof.Machine.execReadBusError s
  | .tickEvent => Sys2Proof.Machine.execTickEvent s
  | .refinEdge elapsed => Sys2Proof.Machine.execRefinEdge elapsed s
  | .loss => Sys2Proof.Machine.execLoss s
  | .goodRun elapsed => Sys2Proof.Machine.execGoodRun elapsed s
  | .edgeEquivalent => Sys2Proof.Machine.execEdgeEquivalent s
  | .wheelStep => Sys2Proof.Machine.execWheelStep s
  | .overflowSweep => Sys2Proof.Machine.execOverflowSweep s
  | .cascade => Sys2Proof.Machine.execCascade s
  | .l0Emptying => Sys2Proof.Machine.execL0Emptying s
  | .stepEnd => Sys2Proof.Machine.execStepEnd s
  | .take => Sys2Proof.Machine.execTake s
  | .drain ring => Sys2Proof.Machine.execDrain ring s
  | .eventPost => Sys2Proof.Machine.execEventPost s
  | .countTrigger ring => Sys2Proof.Machine.execCountTrigger ring s
  | .delayTrigger ring => Sys2Proof.Machine.execDelayTrigger ring s
  | .writeDone => Sys2Proof.Machine.execWriteDone s
  | .writeFailed => Sys2Proof.Machine.execWriteFailed s
  | .destroyWalkVisit domain => Sys2Proof.Machine.execDestroyWalkVisit domain s
  | .destroyWalkEnd domain => Sys2Proof.Machine.execDestroyWalkEnd domain s
  | .exportVisit => Sys2Proof.Machine.execExportVisit s
  | .transferWriteDone => Sys2Proof.Machine.execTransferWriteDone s
  | .exportRelease => Sys2Proof.Machine.execExportRelease s
  | .transferReadDone data => Sys2Proof.Machine.execTransferReadDone data s
  | .importCreation => Sys2Proof.Machine.execImportCreation s
  | .transferBusError => Sys2Proof.Machine.execTransferBusError s

end Sys2Proof.Machine
end

