-- ==== Sys2Proof/Safety.lean ====
section
/-! DEFINITION. What counts as a safe run, in the terms the claims use: the invariants that every step keeps, the frames that say what a command
leaves, and when the executor accepts a command. No command ever stops the engine, so a run is safe when its states keep the invariants. -/

namespace Sys2Proof.Machine

/-! ### Frames -/

/-- Every slot of the Timer Table but `k` reads as before. -/
def State.OnlyRow (s t : State) (k : Nat) : Prop := ∀ j, j ≠ k → t.rowAt j = s.rowAt j

/-- Every domain record but `d` is as before. -/
def State.OnlyDomain (s t : State) (d : Fin 64) : Prop := ∀ j, j ≠ d → t.domain j = s.domain j

/-- Every completion ring record but `c` is as before. -/
def State.OnlyCr (s t : State) (c : Fin 8) : Prop := ∀ j, j ≠ c → t.cr j = s.cr j

/-- Every submission ring record but `i` is as before. -/
def State.OnlySr (s t : State) (i : Fin 8) : Prop := ∀ j, j ≠ i → t.sr j = s.sr j

/-- Nothing but timers has changed: only the Timer Table, the wheel, the fault-trip count, the domain records and the completion ring records may
differ. -/
def State.OnlyTimers (s t : State) : Prop :=
  t.host = s.host ∧ t.fetcher = s.fetcher ∧ t.executor = s.executor ∧ t.timebase = s.timebase ∧ t.transfer = s.transfer ∧
    t.choices = s.choices ∧ t.pending = s.pending ∧ t.poster.events = s.poster.events ∧ t.poster.writes = s.poster.writes

/-- No timer has changed: the Timer Table, the wheel, the fault-trip count and the domain records are as before, and so is the Timebase. -/
def State.SameTimers (s t : State) : Prop :=
  t.table = s.table ∧ t.wheel = s.wheel ∧ t.expiry = s.expiry ∧ t.domains = s.domains ∧ t.timebase = s.timebase

/-- The rest of the Timer Table's own state is as before. -/
def State.SameReservation (s t : State) : Prop :=
  t.table.reservation = s.table.reservation ∧ t.table.waiting = s.table.waiting

/-- R28: the entry `e` as its placement against wheel time `w` leaves it: DUE when its deadline is not later than `w`, otherwise ARMED, with its
location record set. -/
def Entry.placedAt (e : Entry) (w : Nat) : Entry :=
  { e with phase := if e.deadline ≤ w then .due else .armed, location := some (placement w e.deadline) }

/-- R31: the wheel without slot `k`, whose entry is `e`. -/
def State.wheelWithout (s : State) (k : Nat) (e : Entry) : Wheel :=
  match e.location with
  | none => s.wheel
  | some l => s.wheel.remove k l

/-- R31: the domain record of `e` without slot `k` in its held list. -/
def State.domainWithout (s : State) (k : Nat) (e : Entry) : Domain :=
  { s.domain e.domain with
    held := if e.phase = .held then (s.domain e.domain).held.filter (· != k) else (s.domain e.domain).held }

/-- R65: the fault-trip count after `e`, as it stood, has left TRIPPED. -/
def State.tripsWithout (s : State) (e : Entry) : Nat :=
  if e.phase = .tripped ∧ e.faultOption then s.expiry.faultTrips - 1 else s.expiry.faultTrips

/-- R14, R15: `t` is `s` with the entry `e` of slot `k` freed, and nothing else changed. -/
def State.Freed (s t : State) (k : Nat) (e : Entry) : Prop :=
  t.rowAt k = { generation := nextGeneration (s.generationAt k), entry := none, mark := none } ∧ s.OnlyRow t k ∧
    t.table.freeList = s.table.freeList ++ [k] ∧ s.SameReservation t ∧
    t.wheel = s.wheelWithout k e ∧
    t.domain e.domain = { s.domainWithout k e with inUse := (s.domain e.domain).inUse - 1 } ∧
    s.OnlyDomain t e.domain ∧
    t.cr e.ring = { (if e.pendingExpiry.isSome then (s.cr e.ring).undefer k else s.cr e.ring) with bound := (s.cr e.ring).bound - 1 } ∧
    s.OnlyCr t e.ring ∧
    t.expiry = { faultTrips := s.tripsWithout e } ∧ s.OnlyTimers t

/-- R14, R15: `t` is `s` with the entries of these slots freed one after another, and nothing else changed. -/
def State.FreedInTurn : State → List Nat → State → Prop
  | s, [], t => t = s
  | s, k :: rest, t => ∃ (e : Entry) (u : State), s.entryAt k = some e ∧ s.Freed u k e ∧ u.FreedInTurn rest t

/-- R28, R31, R65: `t` is `s` with slot `k`'s entry `e` taken from its place and placed again as `e'`, and nothing else changed. -/
def State.Moved (s t : State) (k : Nat) (e e' : Entry) : Prop :=
  t.rowAt k = { s.rowAt k with entry := some (e'.placedAt s.wheel.time) } ∧ s.OnlyRow t k ∧
    t.wheel = (s.wheelWithout k e).append k (placement s.wheel.time e'.deadline) ∧
    t.domain e.domain = s.domainWithout k e ∧ s.OnlyDomain t e.domain ∧
    t.expiry = { faultTrips := s.tripsWithout e } ∧
    t.table.freeList = s.table.freeList ∧ s.SameReservation t ∧ t.poster.rings = s.poster.rings ∧ s.OnlyTimers t

/-- R13, R15, R28, R114: `t` is `s` with the slot `k` at the head of the free list allocated to the ARM `r`, taken when device time was `now`, and
nothing else changed. -/
def State.Armed (s t : State) (r : CommandBits) (kind : TimerKind) (now k : Nat) : Prop :=
  let d := recDomainFin r
  let c := recPairedFin r
  t.rowAt k = { generation := s.generationAt k, mark := none, entry := some (Entry.placedAt
    { phase := .armed, kind := kind, domain := d, ring := c, deadline := commandDeadline r now
      period := if recPeriod r = 0 then none else some (recPeriod r)
      fireLimit := if recFireLimit r = 0 then none else some (recFireLimit r)
      cookie := recCookie r, faultOption := recFaultOption r, totalFires := 0, pendingExpiry := none, importMark := false
      location := none } s.wheel.time) } ∧ s.OnlyRow t k ∧
    s.table.freeList = k :: t.table.freeList ∧ s.SameReservation t ∧
    t.wheel = s.wheel.append k (placement s.wheel.time (commandDeadline r now)) ∧
    t.domain d = { s.domain d with inUse := (s.domain d).inUse + 1 } ∧ s.OnlyDomain t d ∧
    t.cr c = { s.cr c with bound := (s.cr c).bound + 1 } ∧ s.OnlyCr t c ∧
    t.expiry = s.expiry ∧ s.OnlyTimers t

/-- R18: `t`'s rows are those of `s` without the posting marks that name domain `d`. -/
def State.Unmarked (s t : State) (d : Fin 64) : Prop :=
  ∀ k, t.rowAt k = { s.rowAt k with mark := (s.markAt k).filter (fun m => m.entry.domain != d) }

/-! ### When the executor accepts a command -/

/-- The row of the opcode table that a command kind is. -/
def CommandKind.command : CommandKind → Instr
  | .arm => .arm
  | .rearm => .rearm
  | .cancel => .cancel
  | .kick => .kick
  | .query => .query
  | .readStatus => .readStatus
  | .openSubmissionRing => .openSubmissionRing
  | .closeSubmissionRing => .closeSubmissionRing
  | .openCompletionRing => .openCompletionRing
  | .closeCompletionRing => .closeCompletionRing
  | .restartCompletionRing => .restartCompletionRing
  | .setTimebase => .setTimebase
  | .createDomain => .createDomain
  | .destroyDomain => .destroyDomain
  | .pauseDomain => .pauseDomain
  | .resumeDomain => .resumeDomain
  | .exportDomain => .exportDomain
  | .importDomain => .importDomain
  | .abortTransfer => .abortTransfer

/-- R108, check 3: the field checks of a kind, given the record and N at the take. -/
def CommandKind.fieldsBad : CommandKind → CommandBits → Nat → Bool
  | .arm, r, now => armFieldsBad r now
  | .rearm, r, now => rearmFieldsBad r now
  | .cancel, r, _ | .kick, r, _ | .query, r, _ => handleFieldsBad r
  | .readStatus, _, _ | .abortTransfer, _, _ => false
  | .openSubmissionRing, r, _ => openSubmissionFieldsBad r
  | .closeSubmissionRing, r, _ | .closeCompletionRing, r, _ => closeRingFieldsBad r
  | .openCompletionRing, r, _ => openCompletionFieldsBad r
  | .restartCompletionRing, r, _ => restartFieldsBad r
  | .setTimebase, r, _ => setTimebaseFieldsBad r
  | .createDomain, r, _ => createFieldsBad r
  | .destroyDomain, r, _ | .pauseDomain, r, _ | .resumeDomain, r, _ => domainFieldsBad r
  | .exportDomain, r, _ => exportFieldsBad r
  | .importDomain, r, _ => importFieldsBad r

/-- R106, R107: the command in the executor's hand is `w`, whose kind is `k`: it is EXECUTING `w`, or it may take `w`'s record now. -/
def State.Takes (s : State) (k : CommandKind) (w : Taken) : Prop := s.inHand = some w ∧ kindOf w.record = some k

/-- R108: the command in hand is `w`, of kind `k`, and `w` passes the checks that need no other block. -/
def State.Accepts (s : State) (k : CommandKind) (w : Taken) : Prop :=
  s.Takes k w ∧ (k.adminOnly = true → w.ticket.source = 0) ∧ k.fieldsBad w.record w.takenAt = false

/-! ### The Timer Table -/

/-- The Timer Table's rows are in canonical form. -/
def State.Canonical (s : State) : Prop := s.table.wf = true

/-- R1, R12: the rows are in canonical form, with slot numbers below 16,384, and the free list holds every FREE slot, each once. -/
def State.TableLegal (s : State) : Prop :=
  s.Canonical ∧ (∀ p ∈ s.table.rows, p.1 < Config.tableSize) ∧ s.table.freeList.Nodup ∧
    ∀ k, k ∈ s.table.freeList ↔ k < Config.tableSize ∧ s.entryAt k = none

/-- R5: the ranges of a pending expiry. -/
def PendingExpiry.legal (p : PendingExpiry) : Bool :=
  decide (1 ≤ p.fireCount) && decide (p.fireCount ≤ Config.maxCount16) && decide (p.missedCount ≤ Config.maxCount32) &&
    decide (p.latestDeadline ≤ Config.maxTick)

/-- R2: the ranges of an entry's fields. -/
def Entry.ranged (e : Entry) : Bool :=
  e.ring != 0 && decide (e.deadline ≤ Config.maxTick) && decide (e.totalFires ≤ Config.maxCount32) &&
    e.period.all (fun p => decide (1 ≤ p) && decide (p < 2 ^ 32)) && e.fireLimit.all (fun n => decide (1 ≤ n) && decide (n < 2 ^ 16)) &&
    e.pendingExpiry.all (·.legal)

/-- R4: the optional fields fit the kind. -/
def Entry.fits (e : Entry) : Bool :=
  match e.kind with
  | .oneshot => e.period.isNone && e.fireLimit.isNone && !e.faultOption
  | .periodic => e.period.isSome && !e.faultOption
  | .guard => e.period.isSome && e.fireLimit.isNone

/-- R6, R7, R10, R25: the phase agrees with the location record, with the kind, and with the pending expiry. -/
def Entry.placed (e : Entry) : Bool :=
  match e.phase with
  | .armed => e.location.any (· != .dueQueue)
  | .due => e.location == some .dueQueue
  | .held => e.location.isNone
  | .fired => e.location.isNone && e.kind != .guard && e.pendingExpiry.isSome
  | .tripped => e.location.isNone && e.kind == .guard

/-- An entry that a claim may leave behind. -/
def Entry.legal (e : Entry) : Bool := e.ranged && e.fits && e.placed

/-- R2: the range of a generation. -/
def legalGeneration (g : Nat) : Bool := decide (1 ≤ g) && decide (g ≤ 255)

/-- R16, R17: a slot's generation, entry and mark: a marked slot holds no entry, and its mark holds a FIRED one. -/
def TableRow.legal (r : TableRow) : Bool :=
  legalGeneration r.generation && r.entry.all (·.legal) &&
    r.mark.all (fun m => r.entry.isNone && legalGeneration m.generation && m.entry.phase == .fired && m.entry.legal)

/-- What an expiry write in flight carries is what a pending expiry may hold. -/
def DmaRequest.legal : DmaRequest → Bool
  | .recordWrite _ _ _ _ _ (.expiry _ _ contents) => contents.legal
  | _ => true

/-- Every slot is legal, a slot that is not listed being fresh; so is what a failed write could restore (R64); the record whose creation claim is
under way is well formed (R183), the ARM whose allocation claim waits has passed its field checks (R108, R113), and no KICK (R69), READ STATUS (R12, R119), PAUSE DOMAIN (R72, R77) or
RESUME DOMAIN (R81) is EXECUTING between steps, its take and its claim being one step (DEDUCED, assumption log 6). -/
def State.EntriesLegal (s : State) : Prop :=
  (∀ p ∈ s.table.rows, p.2.legal = true) ∧ (∀ q ∈ s.host.dma, q.legal = true) ∧
    (∀ j r, s.transfer.job = some j → j.creation = some r → wellFormedRecord r = true) ∧
    (∀ w, s.executor.state = .waiting w → armFieldsBad w.record w.takenAt = false) ∧
    ∀ w, s.executor.state = .executing w → (kindOf w.record).any (·.atOnce) = false

/-! ### The Domain Table -/

/-- R72, R73, R83: the fields of a domain record agree with its state. -/
def Domain.legal (d : Domain) : Bool :=
  decide (d.pauseDepth ≤ Config.maxPauseDepth) && (d.pauseStart.isSome == decide (1 ≤ d.pauseDepth)) &&
    (d.walk.isSome == (d.state == .destroying)) && (d.quota.isSome == (d.state != .free)) &&
    d.quota.all (fun q => decide (1 ≤ q) && decide (q ≤ Config.tableSize)) &&
    match d.state with
    | .free | .running => d.pauseDepth == 0 && d.busy == .none
    | .paused => decide (1 ≤ d.pauseDepth)
    | .destroying => d.busy == .none

/-- Every domain record is legal. -/
def State.DomainsLegal (s : State) : Prop := ∀ d, (s.domain d).legal = true

/-! ### Time -/

/-- R23, R91: W is at most N, and N at most 2^64 − 1. -/
def State.WheelBehind (s : State) : Prop := s.wheel.time ≤ s.timebase.time ∧ s.timebase.time ≤ Config.maxTick

/-- R93 to R99: what the Timebase holds agrees with its state; the counters stay below their ends. -/
def Timebase.legal (b : Timebase) : Bool :=
  decide (b.edgeCounter < b.divisor.getD 1) && decide (b.goodRunCount < Config.goodRunLength) &&
    b.divisor.all (fun n => decide (1 ≤ n) && decide (n ≤ 1048576)) && b.nominal.all (fun n => decide (32 ≤ n) && decide (n < 2 ^ 32)) &&
    (b.equivalentStart.isSome == (b.state == .holdover)) &&
    match b.state with
    | .stopped => b.source == .none && b.divisor.isNone && b.nominal.isNone
    | .freeRunning => b.source == .internal && b.divisor.isSome && b.nominal.isNone
    | .acquiring => b.source == .reference && b.divisor.isSome && b.nominal.isSome
    | .locked | .holdover => b.source == .reference && b.divisor.isSome && b.nominal.isSome && b.measuredRatio.isSome

/-- The Timebase is legal. -/
def State.TimebaseLegal (s : State) : Prop := s.timebase.legal = true

/-! ### Rings and events -/

/-- R133, R135: an open submission ring has a size of the list, and its indices lie below it. -/
def SubmissionRing.legal (r : SubmissionRing) : Bool :=
  r.state == .closed || (ringSizes.contains r.size && decide (r.head < r.size) && decide (r.tail < r.size))

/-- R151, R155: an open completion ring has a size of the list, its indices lie below it, and the unconsumed records are those from its head up to its
tail. -/
def CompletionRing.legal (r : CompletionRing) : Bool :=
  r.state == .closed ||
    (ringSizes.contains r.size && decide (r.head < r.size) && decide (r.tail < r.size) && decide ((r.head + r.unconsumed) % r.size = r.tail))

/-- Every ring record is legal. -/
def State.RingsLegal (s : State) : Prop := (∀ i, (s.sr i).legal = true) ∧ ∀ c, (s.cr c).legal = true

/-- R164: the event set holds at most one member of each kind and source, and its occurrences lie between 1 and 65,535. -/
def State.EventsLegal (s : State) : Prop :=
  s.poster.events.Pairwise (fun e f => ¬ (e.kind = f.kind ∧ e.source = f.source)) ∧
    ∀ e ∈ s.poster.events, 1 ≤ e.occurrences ∧ e.occurrences ≤ Config.maxCount16

/-! ### The device -/

/-- R193: a DISABLED device holds the values of a disable in every block: no request in flight, no timer, no domain, no open ring, no event and no
job. (The DEVICE_TIME latch may have been read since, and the admin configuration may have been written: R103, R200.) -/
def State.DisabledEmpty (s : State) : Prop :=
  s.host.device = .disabled →
    s.host.dma = [] ∧ s.fetcher = .reset ∧ s.executor = .reset ∧ s.table = .reset ∧ s.wheel = .reset ∧ s.expiry = .reset ∧
      s.domains = Vector.replicate 64 Domain.reset ∧ s.timebase = { Timebase.reset with latch := s.timebase.latch } ∧
      s.poster = .reset ∧ s.transfer = .reset

/-- R138, R175: one fetch read is in flight exactly while the path is READING, and at most one transfer of the Transfer Unit is; while a creation claim is
under way none is, and the job is in CREATING. -/
def State.OneAtATime (s : State) : Prop :=
  s.host.dma.countP DmaRequest.ofFetcher = (match s.fetcher.path with
    | .reading _ => 1
    | _ => 0) ∧
    s.host.dma.countP DmaRequest.ofTransfer ≤ 1 ∧
    ∀ j, s.transfer.job = some j → j.creation ≠ none → j.stage = .creating ∧ s.transferring = false

end Sys2Proof.Machine
end

