-- ==== Sys2Proof/Certificates/Slice0/Obligations.lean ====
section
/-! DEFINITION. The statements for the provers. In each, N is `s.timebase.time` and W is `s.wheel.time`. A command that the executor takes is said by
its own checks and effect; what the common parts do (the early refusals, the hand-over of completions, the take for writing) is said once, by
statements of their own. -/

open Sys2Proof Sys2Proof.Machine

/-! ### The machine -/

/-- Derived: a step takes the command at the front of the queue and is `exec` of it with the queue's rest; on an empty queue the block idles, which is
the model's own convention (assumption log 1). -/
def Obligations.StepRunsFront : Prop :=
  (∀ (c : Instr) (rest : List Instr) (s : State), step { s with pending := c :: rest } = exec c { s with pending := rest }) ∧
    ∀ s : State, s.pending = [] → step s = .next s

/-- Derived (R108, R142, R166, R187, R191: a refused command, a bus error, a bad index and a fatal fault are all handled by the engine): every command
answers a next state from every state, and none touches the queue. -/
def Obligations.EveryCommandCompletes : Prop :=
  ∀ (c : Instr) (s : State), ∃ t : State, exec c s = .next t ∧ t.pending = s.pending

/-! ### What every step keeps -/

/-- Derived from R1, R2 and R12: the Timer Table's rows stay in canonical form, and the free list keeps holding every FREE slot, each once. (Canonical form
is the model's own, assumption log 28.) -/
def Obligations.TableStaysLegal : Prop :=
  ∀ s t : State, s.TableLegal → step s = .next t → t.TableLegal

/-- Derived from R2, R4 to R7, R10, R16 and R25: the fields of every entry keep their ranges, fit its kind, and agree with its phase; generations stay
between 1 and 255; a marked slot holds no entry; an ARM that waits is one that has passed its field checks (R113); and no KICK, READ STATUS, PAUSE
DOMAIN or RESUME DOMAIN is EXECUTING between steps (the model's reading of R69, of R12 with R119, of R72 with R77, and of R81, assumption log 6). -/
def Obligations.EntriesStayLegal : Prop :=
  ∀ s t : State, s.EntriesLegal → step s = .next t → t.EntriesLegal

/-- Derived from R72, R73, R77, R81, R83 and R85: every domain record keeps agreeing with its state, and no pause depth passes 4. -/
def Obligations.DomainsStayLegal : Prop :=
  ∀ s t : State, s.DomainsLegal → step s = .next t → t.DomainsLegal

/-- Derived from R23, R91 and R45: W never passes N, and N never passes 2^64 − 1. -/
def Obligations.WheelStaysBehind : Prop :=
  ∀ s t : State, s.WheelBehind → step s = .next t → t.WheelBehind

/-- Derived from R93 to R99: source, divisor and nominal period keep agreeing with the Timebase state, an edge equivalent is in progress in HOLDOVER only, the edge counter stays below the divisor, and the
good-run count below 1,024. -/
def Obligations.TimebaseStaysLegal : Prop :=
  ∀ s t : State, s.TimebaseLegal → step s = .next t → t.TimebaseLegal

/-- Derived from R133, R135, R141, R151, R154, R155 and R169: in every open ring the indices stay below the size, and in every open completion ring the
unconsumed records are those from head to tail. -/
def Obligations.RingsStayLegal : Prop :=
  ∀ s t : State, s.RingsLegal → step s = .next t → t.RingsLegal

/-- Derived from R164: the event set never holds two members of one kind and source, and an event's occurrences stay between 1 and 65,535. -/
def Obligations.EventsStayLegal : Prop :=
  ∀ s t : State, s.EventsLegal → step s = .next t → t.EventsLegal

/-- Derived from R189, R191, R193 and R194: a DISABLED device holds the values of a disable in every block, whatever is commanded. -/
def Obligations.DisabledStaysEmpty : Prop :=
  ∀ s t : State, s.DisabledEmpty → step s = .next t → t.DisabledEmpty

/-- Derived from R138, R175 and R183: one fetch read is in flight exactly while the path is READING, and never more than one transfer. -/
def Obligations.OneAtATimeStays : Prop :=
  ∀ s t : State, s.OneAtATime → step s = .next t → t.OneAtATime

/-- Derived: the state right after the power-on reset meets the invariants above. -/
def Obligations.ResetMeetsInvariants : Prop :=
  State.reset.TableLegal ∧ State.reset.EntriesLegal ∧ State.reset.DomainsLegal ∧ State.reset.WheelBehind ∧ State.reset.TimebaseLegal ∧
    State.reset.RingsLegal ∧ State.reset.EventsLegal ∧ State.reset.DisabledEmpty ∧ State.reset.OneAtATime

/-! ### Rules of the whole machine -/

/-- Derived from R3: no command changes the domain, completion ring, kind, cookie or fault option of an entry that stays in use under its
generation. -/
def Obligations.IdentityFieldsKept : Prop :=
  ∀ (c : Instr) (s t : State) (k : Nat) (e e' : Entry), s.TableLegal → s.EntriesLegal → exec c s = .next t →
    s.entryAt k = some e → t.entryAt k = some e' → t.generationAt k = s.generationAt k →
    e'.domain = e.domain ∧ e'.ring = e.ring ∧ e'.kind = e.kind ∧ e'.cookie = e.cookie ∧ e'.faultOption = e.faultOption

/-- Derived from R148, R168, R171, R188 and R191: outside READY no command issues a DMA request; those in flight can only end or be abandoned. -/
def Obligations.NoNewRequestOutsideReady : Prop :=
  ∀ (c : Instr) (s t : State), s.host.device ≠ .ready → exec c s = .next t → List.Sublist t.host.dma s.host.dma

/-! ### Shared operations -/

/-- Derived from R25 and R28: a deadline not later than W goes to the due queue; any other to the lowest level above whose digit it agrees with W, in the
slot of its own digit there; and to the overflow list when there is no such level. -/
def Obligations.PlacementByAgreement : Prop :=
  ∀ w d : Nat, (d ≤ w → placement w d = .dueQueue) ∧
    (w < d →
      (∀ (l : Fin 4) (i : Fin 64), placement w d = .slot l i ↔
        d / 64 ^ (l.val + 1) = w / 64 ^ (l.val + 1) ∧ (∀ m, m < l.val → d / 64 ^ (m + 1) ≠ w / 64 ^ (m + 1)) ∧ i.val = d / 64 ^ l.val % 64) ∧
      (placement w d = .overflow ↔ d / 64 ^ 4 ≠ w / 64 ^ 4))

/-- Derived from R154, R203 and section 11.4: the place of every field in the 32 bytes of a completion record; the rest is 0. -/
def Obligations.CompletionRecordLayout : Prop :=
  ∀ (c : Completion) (phase : Bool),
    (c.encode phase).extractLsb' 0 8 = c.status ∧ (c.encode phase).extractLsb' 8 8 =
      BitVec.ofNat 8 (c.kind.code + 128 * phase.toNat) ∧
    (c.encode phase).extractLsb' 16 16 = c.flags ∧ (c.encode phase).extractLsb' 32 8 = c.source ∧
    (c.encode phase).extractLsb' 40 8 = 0#8 ∧ (c.encode phase).extractLsb' 48 16 = c.tag ∧
    (c.encode phase).extractLsb' 64 32 = c.handle ∧ (c.encode phase).extractLsb' 96 32 = c.count ∧
    (c.encode phase).extractLsb' 128 64 = c.wordA ∧ (c.encode phase).extractLsb' 192 64 = c.wordB

/-- Derived from R154, R162 and R163: a take for writing issues the record's write to the slot at the tail, with the ring's phase; the tail goes on by one,
from size − 1 to 0 with the phase flipped; the unconsumed count rises, and a reserved slot is used up; with interrupts enabled the record is
counted, and the count that reaches the moderation count sends the message and starts over. Nothing else changes. (That writes carry a number, counted in
`Poster.writes`, is the model's own: assumption log 23.) -/
def Obligations.TakeForWritingCommits : Prop :=
  ∀ (s : State) (c : Fin 8) (reserve : Bool) (record : Completion) (origin : RecordOrigin),
    let r := s.cr c
    let t := s.takeForWriting c reserve record origin
    let due := r.interrupts = true ∧ r.moderationCount ≤ r.unnotified + 1
    t.host = { s.host with dma := s.host.dma ++
      (.recordWrite c r.tail s.poster.writes (r.base + BitVec.ofNat 64 (32 * r.tail)) (record.encode r.phase) origin ::
        if due then [.messageWrite c r.messageAddress r.messageData] else []) } ∧
    t.cr c = { r with
      tail := if r.tail + 1 < r.size then r.tail + 1 else 0
      phase := if r.tail + 1 < r.size then r.phase else !r.phase
      unconsumed := r.unconsumed + 1
      reserved := if reserve then r.reserved - 1 else r.reserved
      unnotified := if due then 0 else if r.interrupts then r.unnotified + 1 else r.unnotified
      delayCount :=
        if due then none
        else if r.interrupts = true ∧ r.unnotified = 0 ∧ 0 < r.moderationDelay then some 0 else r.delayCount } ∧
    s.OnlyCr t c ∧ t.poster.events = s.poster.events ∧ t.poster.writes = s.poster.writes + 1 ∧ s.SameTimers t ∧
    t.fetcher = s.fetcher ∧ t.executor = s.executor ∧ t.transfer = s.transfer ∧ t.choices = s.choices ∧ t.pending = s.pending

/-- Derived from R106, R109, R111, R146, R156 and R171: a command's end hands its completion to the ring that holds its reservation, taking it for writing
with that reservation while the device is READY and the ring ACTIVE, and queueing it otherwise; the executor is IDLE; and the completion held for a
CLOSING source ring, which is now CLOSED, is handed after it. -/
def Obligations.CommandEndHandsCompletion : Prop :=
  ∀ (s : State) (k : Ticket) (r : Reply),
    let record : Completion :=
      { kind := .command, status := r.status.code, flags := r.flags, source := BitVec.ofNat 8 k.source.val, tag := k.tag
        handle := r.handle, count := r.count, wordA := r.wordA, wordB := r.wordB }
    let handed := if s.host.device = .ready ∧ (s.cr k.ring).state = .active then s.takeForWriting k.ring true record .completion
      else s.updateCr k.ring (fun q => { q with queue := q.queue ++ [record] })
    let idle : State := { handed with executor := { handed.executor with state := .idle } }
    ((s.sr k.source).state ≠ .closing → s.answer k r = idle) ∧
    ((s.sr k.source).state = .closing →
      let closed := idle.updateSr k.source (fun _ => SubmissionRing.reset)
      (s.executor.held = none → s.answer k r = closed) ∧
      (∀ h, s.executor.held = some h → s.answer k r =
        ({ closed with executor := { closed.executor with held := none } } : State).handCompletion h.ring h.completion))

/-- Derived from R12, R23, R72, R77, R81, R106, R107, R108, R119, R138 and R202: the take, and the checks that come before a command's own. In READY an IDLE executor may take the record in
its input place, and with a completion held only one from the CLOSING ring; the take notes N, empties the input place and frees the fetch path; a command that is
EXECUTING is in hand already. A kind byte that is none of the nineteen is refused INVALID_KIND, an admin-only kind from an I/O ring ADMIN_ONLY, and
then a bad field value INVALID_FIELD; nothing but the take and the completion happens. By the model's choice or reading: that a command with no such
record leaves the state as it is (assumption log 5); that the take may come in the command's own step (log 6); that in states with legal entries
a KICK, a READ STATUS, a PAUSE DOMAIN and a RESUME DOMAIN are taken by their own step, from the state as it stands, so that R72 and R77 name the same N, and
R12, R23 and R119 the same state (log 6); and that the refusal's handle has bits 24
to 31 written 0 (log 19, from R202's "ignored in commands; written 0"). -/
def Obligations.EarlyRefusals : Prop :=
  (∀ (s : State) (d : Delivered), s.takeable = some d ↔
    s.host.device = .ready ∧ s.executor.state = .idle ∧ s.executor.input = some d ∧
      ∀ h, s.executor.held = some h → d.source = h.closing) ∧
  (∀ (s : State) (d : Delivered), s.takeable = some d →
    let w : Taken :=
      { ticket := { source := d.source, ring := d.ring, tag := recTag d.record }, record := d.record, takenAt := s.timebase.time }
    s.inHand = some w ∧ s.takeRecord = { s with
      executor := { s.executor with state := .executing w, input := none }
      fetcher := { s.fetcher with path := match s.fetcher.path with
        | .delivered _ => .idle
        | p => p } }) ∧
  (∀ s : State, s.takeable = none → s.takeRecord = s ∧ ∀ w, s.inHand = some w ↔ s.executor.state = .executing w) ∧
  (∀ (s : State) (w : Taken), s.inHand = some w → kindOf w.record = none →
    exec .invalidKind s = .next (s.takeRecord.answer w.ticket { status := .invalidKind })) ∧
  (∀ s : State, (∀ w, s.inHand = some w → kindOf w.record ≠ none) → exec .invalidKind s = .next s) ∧
  (∀ (k : CommandKind) (s : State), (∀ w, ¬ s.Takes k w) → exec k.command s = .next s) ∧
  ∀ (k : CommandKind) (s : State) (w : Taken), s.Takes k w →
    let handle := if k = .rearm ∨ k = .cancel ∨ k = .kick ∨ k = .query then echoHandle (recHandle w.record) else 0#32
    (k.adminOnly = true → w.ticket.source ≠ 0 →
      exec k.command s = .next (s.takeRecord.answer w.ticket { status := .adminOnly, handle := handle })) ∧
    ((k.adminOnly = true → w.ticket.source = 0) → k.fieldsBad w.record w.takenAt = true →
      exec k.command s = .next (s.takeRecord.answer w.ticket { status := .invalidField, handle := handle })) ∧
    (k = .kick ∨ k = .readStatus ∨ k = .pauseDomain ∨ k = .resumeDomain → s.EntriesLegal →
      s.takeable.isSome = true ∧ w.takenAt = s.timebase.time)

/-- Derived from R93, R107, R112, R113, R115 to R118, R120 to R127, R130, R131, R202 and sections 11.3 and 11.6 (R128 and R129 make R127's check too): the place of
every field in the 64 bytes of a command record, the code of every kind, and which field values the entry of every command that checks one accepts. -/
def Obligations.FieldChecksAsListed : Prop :=
  ∀ (r : CommandBits) (now : Nat),
    (recKind r = r.extractLsb' 0 8 ∧ recTimerKind r = r.extractLsb' 8 8 ∧ recTimeMode r = (r.extractLsb' 16 2).toNat ∧
      recForce r = r.getLsbD 18 ∧ recRelease r = r.getLsbD 19 ∧ recFaultOption r = r.getLsbD 20 ∧ recInterrupts r = r.getLsbD 21 ∧
      recTag r = r.extractLsb' 32 16 ∧ recDomain r = (r.extractLsb' 48 8).toNat ∧ recRing r = (r.extractLsb' 56 8).toNat ∧
      recPaired r = (r.extractLsb' 64 8).toNat ∧ recWeight r = (r.extractLsb' 72 8).toNat ∧
      recModerationCount r = (r.extractLsb' 80 8).toNat ∧ recHandle r = r.extractLsb' 96 32 ∧
      handleSlot (recHandle r) = (r.extractLsb' 96 16).toNat ∧ handleGeneration (recHandle r) = (r.extractLsb' 112 8).toNat ∧
      recTime r = (r.extractLsb' 128 64).toNat ∧ recCookie r = r.extractLsb' 192 64 ∧ recPeriod r = (r.extractLsb' 256 32).toNat ∧
      recFireLimit r = (r.extractLsb' 288 16).toNat ∧ recModerationDelay r = (r.extractLsb' 304 16).toNat ∧
      recAddressA r = r.extractLsb' 320 64 ∧ recAddressB r = r.extractLsb' 384 64 ∧ recLengthA r = (r.extractLsb' 448 32).toNat ∧
      recLengthB r = r.extractLsb' 480 32) ∧
    (∀ p ∈ ([(.arm, 0x01), (.rearm, 0x02), (.cancel, 0x03), (.kick, 0x04), (.query, 0x05), (.readStatus, 0x06), (.openSubmissionRing, 0x10),
        (.closeSubmissionRing, 0x11), (.openCompletionRing, 0x12), (.closeCompletionRing, 0x13), (.restartCompletionRing, 0x14),
        (.setTimebase, 0x18), (.createDomain, 0x20), (.destroyDomain, 0x21), (.pauseDomain, 0x22), (.resumeDomain, 0x23),
        (.exportDomain, 0x28), (.importDomain, 0x29), (.abortTransfer, 0x2A)] : List (CommandKind × Nat)),
      kindOf r = some p.1 ↔ (r.extractLsb' 0 8).toNat = p.2) ∧
    (armFieldsBad r now = false ↔
      recDomain r ≤ 63 ∧ recTimeMode r ≤ 1 ∧ (recTimeMode r = 1 → now + recTime r ≤ 2 ^ 64 - 1) ∧ 1 ≤ recPaired r ∧ recPaired r ≤ 7 ∧
      ((recTimerKind r = 0#8 ∧ recPeriod r = 0 ∧ recFireLimit r = 0 ∧ recFaultOption r = false) ∨
       (recTimerKind r = 1#8 ∧ recPeriod r ≠ 0 ∧ recFaultOption r = false) ∨
       (recTimerKind r = 2#8 ∧ recPeriod r ≠ 0 ∧ recFireLimit r = 0))) ∧
    (rearmFieldsBad r now = false ↔
      handleSlot (recHandle r) ≤ 16383 ∧ handleGeneration (recHandle r) ≠ 0 ∧ recTimeMode r ≤ 1 ∧
      (recTimeMode r = 1 → now + recTime r ≤ 2 ^ 64 - 1)) ∧
    (openSubmissionFieldsBad r = false ↔
      1 ≤ recRing r ∧ recRing r ≤ 7 ∧ 64 ∣ (recAddressA r).toNat ∧ (∃ n, 4 ≤ n ∧ n ≤ 12 ∧ recLengthA r = 2 ^ n) ∧
      1 ≤ recPaired r ∧ recPaired r ≤ 7 ∧ 1 ≤ recWeight r ∧ recWeight r ≤ 16) ∧
    (openCompletionFieldsBad r = false ↔
      1 ≤ recRing r ∧ recRing r ≤ 7 ∧ 64 ∣ (recAddressA r).toNat ∧ (∃ n, 4 ≤ n ∧ n ≤ 12 ∧ recLengthA r = 2 ^ n) ∧
      4 ∣ (recAddressB r).toNat ∧ 1 ≤ recModerationCount r ∧ recModerationDelay r ≤ 1023) ∧
    (restartFieldsBad r = false ↔ recRing r ≤ 7 ∧ 64 ∣ (recAddressA r).toNat) ∧
    (setTimebaseFieldsBad r = false ↔
      1 ≤ recLengthA r ∧ recLengthA r ≤ 1048576 ∧
      ((recTimerKind r = 1#8 ∧ 32 ≤ (recLengthB r).toNat) ∨ recTimerKind r = 2#8)) ∧
    (exportFieldsBad r = false ↔ recDomain r ≤ 63 ∧ 8 ∣ (recAddressA r).toNat) ∧
    (importFieldsBad r = false ↔
      recDomain r ≤ 63 ∧ 8 ∣ (recAddressA r).toNat ∧ 40 ≤ recLengthA r ∧ 4 ∣ (recAddressB r).toNat) ∧
    (handleFieldsBad r = false ↔ handleSlot (recHandle r) ≤ 16383 ∧ handleGeneration (recHandle r) ≠ 0) ∧
    (closeRingFieldsBad r = false ↔ 1 ≤ recRing r ∧ recRing r ≤ 7) ∧
    (createFieldsBad r = false ↔ recDomain r ≤ 63 ∧ 1 ≤ recLengthA r ∧ recLengthA r ≤ 16384) ∧
    (domainFieldsBad r = false ↔ recDomain r ≤ 63)

/-! ### Timer commands -/

/-- Derived from R13, R15, R28, R113 and R114: an ARM whose claim need not wait makes its checks in order; passing them, it allocates the slot at the head of
the free list, counts it, and places it; the completion carries the handle and the deadline. -/
def Obligations.ArmCreatesEntry : Prop :=
  ∀ (s : State) (w : Taken) (kind : TimerKind), s.Accepts .arm w → s.headMarked = false → s.table.waiting = [] →
    TimerKind.ofCode (recTimerKind w.record).toNat = some kind →
    let r := w.record
    let dom := s.domain (recDomainFin r)
    let checks : List (Bool × Status) :=
      [(dom.state == .free, .noSuchDomain),
       (dom.state == .destroying || dom.busy != .none, .domainBusy),
       (s.timebase.state == .stopped, .timebaseStopped),
       ((s.cr (recPairedFin r)).state == .closed, .noSuchRing),
       (decide (dom.quota.getD 0 < dom.inUse + s.marksNaming (recDomainFin r) + 1), .quotaExceeded),
       (decide (s.unmarkedFree ≤ s.table.reservation), .noEntries)]
    (∀ status, firstFailure checks = some status → exec .arm s = .next (s.takeRecord.answer w.ticket { status := status })) ∧
    (firstFailure checks = none → ∃ (k : Nat) (t : State), exec .arm s = .next (t.answer w.ticket
        { status := .success, handle := handleOf k (s.generationAt k), wordA := BitVec.ofNat 64 (commandDeadline r w.takenAt)
          flags := flagFaultOption (recFaultOption r) }) ∧
      s.takeRecord.Armed t r kind w.takenAt k)

/-- Derived from R13, R106 and R192: an ARM whose claim finds the free-list head marked waits, with N as read at its take. It is taken once the head carries no
mark and it is first in the waiting order; then the checks are made, on the state as it then stands. By the model's reading: an ARM also waits where another
allocation claim already does (assumption log 15); and ALLOCATION is taken in every device state (log 18: R106 has a WAITING command complete its claims, and
R192 has the mark stay outside READY, so a claim that waits for its removal is not taken there). -/
def Obligations.WaitingArmIsAllocated : Prop :=
  (∀ (s : State) (w : Taken), s.Accepts .arm w → s.headMarked = true ∨ s.table.waiting ≠ [] →
    exec .arm s = .next { s.takeRecord with
      executor := { s.takeRecord.executor with state := .waiting w }
      table := { s.table with waiting := s.table.waiting ++ [.arm] } }) ∧
  (∀ s : State, (∀ w, s.executor.state ≠ .waiting w) ∨ s.headMarked = true ∨ s.table.waiting.head? ≠ some .arm →
    exec .allocation s = .next s) ∧
  ∀ (s : State) (w : Taken) (kind : TimerKind) (rest : List Waiter), s.executor.state = .waiting w →
    s.headMarked = false → s.table.waiting = .arm :: rest → TimerKind.ofCode (recTimerKind w.record).toNat = some kind →
    let r := w.record
    let dom := s.domain (recDomainFin r)
    let checks : List (Bool × Status) :=
      [(dom.state == .free, .noSuchDomain),
       (dom.state == .destroying || dom.busy != .none, .domainBusy),
       (s.timebase.state == .stopped, .timebaseStopped),
       ((s.cr (recPairedFin r)).state == .closed, .noSuchRing),
       (decide (dom.quota.getD 0 < dom.inUse + s.marksNaming (recDomainFin r) + 1), .quotaExceeded),
       (decide (s.unmarkedFree ≤ s.table.reservation), .noEntries)]
    let s' : State := { s with
      executor := { s.executor with state := .executing w }
      table := { s.table with waiting := rest } }
    (∀ status, firstFailure checks = some status → exec .allocation s = .next (s'.answer w.ticket { status := status })) ∧
    (firstFailure checks = none → ∃ (k : Nat) (t : State), exec .allocation s = .next (t.answer w.ticket
        { status := .success, handle := handleOf k (s.generationAt k), wordA := BitVec.ofNat 64 (commandDeadline r w.takenAt)
          flags := flagFaultOption (recFaultOption r) }) ∧
      s'.Armed t r kind w.takenAt k)

/-- Derived from R19, R68 and R115: a REARM of a matched entry makes its checks in order; passing them, the entry leaves its place and is placed by its
new deadline, with a new period when one is given; a handle that matches nothing is answered NOT_FOUND. In the completion's handle, bits 24 to 31 are written 0: the model's
reading of R202 (assumption log 19). -/
def Obligations.RearmReplacesEntry : Prop :=
  ∀ (s : State) (w : Taken), s.Accepts .rearm w →
    let r := w.record
    let h := recHandle r
    let k := handleSlot h
    ((s.entryAt k = none ∨ s.generationAt k ≠ handleGeneration h) →
      exec .rearm s = .next (s.takeRecord.answer w.ticket { status := .notFound, handle := echoHandle h })) ∧
    (∀ e, s.entryAt k = some e → s.generationAt k = handleGeneration h →
      let checks : List (Bool × Status) :=
        [((s.domain e.domain).state == .destroying || (s.domain e.domain).busy != .none, .domainBusy),
         (recPeriod r != 0 && e.kind == .oneshot, .wrongKind),
         (e.phase == .fired, .tooLate)]
      let e' := { e with
        deadline := commandDeadline r w.takenAt
        period := if recPeriod r = 0 then e.period else some (recPeriod r) }
      (∀ status, firstFailure checks = some status →
        exec .rearm s = .next (s.takeRecord.answer w.ticket { status := status, handle := echoHandle h })) ∧
      (firstFailure checks = none → ∃ t : State, exec .rearm s = .next (t.answer w.ticket
          { status := .success, handle := echoHandle h, wordA := BitVec.ofNat 64 e'.deadline
            flags := flagWasTripped (e.phase == .tripped) }) ∧
        s.takeRecord.Moved t k e e'))

/-- Derived from R19, R67 and R116: a CANCEL of a matched entry of a domain that is not busy frees it, from any phase, and answers WITHDRAWN when it held a
pending expiry. In the completion's handle, bits 24 to 31 are written 0: the model's reading of R202 (assumption log 19). -/
def Obligations.CancelFreesEntry : Prop :=
  ∀ (s : State) (w : Taken), s.Accepts .cancel w →
    let h := recHandle w.record
    let k := handleSlot h
    ((s.entryAt k = none ∨ s.generationAt k ≠ handleGeneration h) →
      exec .cancel s = .next (s.takeRecord.answer w.ticket { status := .notFound, handle := echoHandle h })) ∧
    (∀ e, s.entryAt k = some e → s.generationAt k = handleGeneration h →
      ((s.domain e.domain).isBusy = true →
        exec .cancel s = .next (s.takeRecord.answer w.ticket { status := .domainBusy, handle := echoHandle h })) ∧
      ((s.domain e.domain).isBusy = false → ∃ t : State, exec .cancel s = .next (t.answer w.ticket
          { status := if e.pendingExpiry = none then .success else .withdrawn, handle := echoHandle h
            flags := flagWasTripped (e.phase == .tripped) }) ∧
        s.takeRecord.Freed t k e))

/-- Derived from R19, R69 and R117: a KICK of a matched guard gives it the deadline N, as read at the take, plus its period, and places it; in every state that a
run can reach, it becomes ARMED (a KICK's take and claim are one step: the model's reading, assumption log 6). In the completion's handle, bits 24 to 31 are written 0: the model's reading of R202 (assumption log 19). -/
def Obligations.KickPostponesGuard : Prop :=
  ∀ (s : State) (w : Taken), s.Accepts .kick w →
    let h := recHandle w.record
    let k := handleSlot h
    ((s.entryAt k = none ∨ s.generationAt k ≠ handleGeneration h) →
      exec .kick s = .next (s.takeRecord.answer w.ticket { status := .notFound, handle := echoHandle h })) ∧
    (∀ e, s.entryAt k = some e → s.generationAt k = handleGeneration h →
      let deadline := w.takenAt + e.period.getD 0
      let checks : List (Bool × Status) :=
        [((s.domain e.domain).state == .destroying || (s.domain e.domain).busy != .none, .domainBusy),
         (e.kind != .guard, .wrongKind),
         (decide (2 ^ 64 - 1 < deadline), .invalidField)]
      (∀ status, firstFailure checks = some status →
        exec .kick s = .next (s.takeRecord.answer w.ticket { status := status, handle := echoHandle h })) ∧
      (firstFailure checks = none → ∃ t : State, exec .kick s = .next (t.answer w.ticket
          { status := .success, handle := echoHandle h, wordA := BitVec.ofNat 64 deadline
            flags := flagWasTripped (e.phase == .tripped) ||| flagFaultOption e.faultOption }) ∧
        s.takeRecord.Moved t k e { e with deadline := deadline } ∧
        (s.EntriesLegal → s.WheelBehind → s.wheel.time < deadline ∧ (t.entryAt k).map Entry.phase = some .armed)))

/-- Derived from R12, R23, R70, R104, R118, R119 and section 11.4: QUERY and READ STATUS change nothing but the executor and what their completions change; what they report.
By the model's reading or choice: READ STATUS's claim is also its take, so both moments the rules name are this step (log 6); QUERY's handle has bits 24 to 31
written 0 (R202, assumption log 19), and the remaining ticks of an imported TRIPPED entry whose
deadline is later than N are 0, as of every entry that is neither ARMED nor DUE (log 33). -/
def Obligations.QueryAndReadStatusReport : Prop :=
  (∀ (s : State) (w : Taken), s.Accepts .query w →
    let h := recHandle w.record
    let k := handleSlot h
    ((s.entryAt k = none ∨ s.generationAt k ≠ handleGeneration h) →
      exec .query s = .next (s.takeRecord.answer w.ticket { status := .notFound, handle := echoHandle h })) ∧
    (∀ e, s.entryAt k = some e → s.generationAt k = handleGeneration h →
      exec .query s = .next (s.takeRecord.answer w.ticket
        { status := .success, handle := echoHandle h
          wordA := BitVec.ofNat 64 (if e.phase = .armed ∨ e.phase = .due then e.deadline - s.timebase.time else 0), wordB := e.cookie
          count := BitVec.ofNat 32 e.totalFires
          flags := BitVec.ofNat 16 (16 * e.phase.code + 128 * e.kind.code + 8 * e.pendingExpiry.isSome.toNat + 4 * e.faultOption.toNat) }))) ∧
  ∀ (s : State) (w : Taken), s.Accepts .readStatus w →
    exec .readStatus s = .next (s.takeRecord.answer w.ticket
      { status := .success
        handle := BitVec.ofNat 16 (s.poster.rings.toList.map (fun r => r.deferred.length)).sum ++ BitVec.ofNat 16 s.table.reservation
        count := BitVec.ofNat 32 s.table.freeList.length, wordA := BitVec.ofNat 64 s.timebase.time, wordB := BitVec.ofNat 64 s.wheel.time
        flags := BitVec.ofNat 16 (512 * s.timebase.state.code + 4096 * s.wheel.overrun.toNat + 8192 * (decide (0 < s.expiry.faultTrips)).toNat +
          16384 * (decide (∃ i, (s.sr i).state = .error)).toNat + 32768 * (decide (∃ c, (s.cr c).state = .error)).toNat) })

/-! ### Ring commands and SET TIMEBASE -/

/-- Derived from R120 and R145: OPEN SUBMISSION RING opens a CLOSED ring onto an open completion ring; the grant, its used count and the weight it was
given with stay. -/
def Obligations.OpenSubmissionRingOpens : Prop :=
  ∀ (s : State) (w : Taken), s.Accepts .openSubmissionRing w →
    let r := w.record
    let i := recRingFin r
    ((s.sr i).state ≠ .closed →
      exec .openSubmissionRing s = .next (s.takeRecord.answer w.ticket { status := .ringOpen })) ∧
    ((s.sr i).state = .closed → (s.cr (recPairedFin r)).state = .closed →
      exec .openSubmissionRing s = .next (s.takeRecord.answer w.ticket { status := .noSuchRing })) ∧
    ((s.sr i).state = .closed → (s.cr (recPairedFin r)).state ≠ .closed →
      ∃ t : State, exec .openSubmissionRing s = .next (t.answer w.ticket { status := .success }) ∧
        t.sr i = { state := .active, base := recAddressA r, size := recLengthA r, head := 0, tail := 0, paired := recPairedFin r
                   weight := recWeight r, cause := .none } ∧
        s.OnlySr t i ∧ s.SameTimers t ∧ t.poster = s.poster ∧ t.host = s.host ∧ t.executor = s.takeRecord.executor ∧
        t.fetcher.path = s.takeRecord.fetcher.path ∧ t.fetcher.grant = s.fetcher.grant ∧ t.fetcher.used = s.fetcher.used ∧
        t.fetcher.grantWeight = s.fetcher.grantWeight ∧ t.transfer = s.transfer ∧ t.pending = s.pending)

/-- Derived from R121, R134 and R146: CLOSE SUBMISSION RING makes an ACTIVE ring with a fetch outstanding CLOSING and holds its completion; any other open ring
is CLOSED at once, which a read of it in flight notes (assumption log 31). Word A is the ring's error cause. -/
def Obligations.CloseSubmissionRingCloses : Prop :=
  ∀ (s : State) (w : Taken), s.Accepts .closeSubmissionRing w →
    let i := recRingFin w.record
    let taken := s.takeRecord
    let fetching := taken.fetcher.path.source = some i
    let path := match taken.fetcher.path with
      | .reading f => .reading (if f.source = i then { f with ringClosed := true } else f)
      | p => p
    let reply : Reply := { status := .success, wordA := BitVec.ofNat 64 (s.sr i).cause.code }
    ((s.sr i).state = .closed ∨ (s.sr i).state = .closing →
      exec .closeSubmissionRing s = .next (taken.answer w.ticket { status := .noSuchRing })) ∧
    ((s.sr i).state = .active → fetching → exec .closeSubmissionRing s = .next
      (({ taken.updateSr i (fun q => { q with state := .closing }) with
          executor := { taken.executor with
            held := some { closing := i, ring := w.ticket.ring, completion := reply.completion w.ticket } } } : State).endCommand w.ticket)) ∧
    ((s.sr i).state = .active ∧ ¬ fetching ∨ (s.sr i).state = .error → exec .closeSubmissionRing s = .next
      ((({ taken with fetcher := { taken.fetcher with path := path } } : State).updateSr i (fun _ => SubmissionRing.reset)).answer
        w.ticket reply))

/-- Derived from R122, R123, R170 and R182: OPEN COMPLETION RING opens a CLOSED ring with the command's settings; CLOSE COMPLETION RING closes an open one
that nothing uses. -/
def Obligations.CompletionRingsOpenAndClose : Prop :=
  (∀ (s : State) (w : Taken), s.Accepts .openCompletionRing w →
    let r := w.record
    let c := recRingFin r
    ((s.cr c).state ≠ .closed → exec .openCompletionRing s = .next (s.takeRecord.answer w.ticket { status := .ringOpen })) ∧
    ((s.cr c).state = .closed → exec .openCompletionRing s = .next ((s.takeRecord.updateCr c (fun _ =>
      { state := .active, base := recAddressA r, size := recLengthA r, tail := 0, head := 0, phase := true, unconsumed := 0, reserved := 0
        bound := 0, deferred := [], restoredRun := 0, queue := [], messageAddress := recAddressB r, messageData := recLengthB r
        interrupts := recInterrupts r, moderationCount := recModerationCount r, moderationDelay := recModerationDelay r
        unnotified := 0, delayCount := none, cause := .none })).answer w.ticket { status := .success }))) ∧
  ∀ (s : State) (w : Taken), s.Accepts .closeCompletionRing w →
    let c := recRingFin w.record
    let inUse := (∃ i, (s.sr i).state ≠ .closed ∧ (s.sr i).paired = c) ∨ 0 < (s.cr c).bound ∨
      (∃ p ∈ s.marks, p.2.entry.ring = c) ∨ (s.cr c).deferred ≠ [] ∨ 0 < (s.cr c).reserved ∨
      (∃ q ∈ s.host.dma, q.toRing c = true) ∨ (∃ j, s.transfer.job = some j ∧ 0 < j.ringHolds[c])
    ((s.cr c).state = .closed → exec .closeCompletionRing s = .next (s.takeRecord.answer w.ticket { status := .noSuchRing })) ∧
    ((s.cr c).state ≠ .closed → inUse →
      exec .closeCompletionRing s = .next (s.takeRecord.answer w.ticket { status := .ringInUse })) ∧
    ((s.cr c).state ≠ .closed → ¬ inUse → exec .closeCompletionRing s = .next
      ((s.takeRecord.updateCr c (fun _ => CompletionRing.reset)).answer w.ticket { status := .success }))

/-- Derived from R124, R169 and R171: RESTART COMPLETION RING of a ring in ERROR makes it ACTIVE and empty from slot 0, keeps its deferred list and its counts of
reservations and bound entries, and takes the queued completions for writing in order; the count is the deferred entries', word A the error cause.
Where its claim is made after the device has left READY, the queue is kept. -/
def Obligations.RestartReopensRing : Prop :=
  ∀ (s : State) (w : Taken), s.Accepts .restartCompletionRing w →
    let c := recRingFin w.record
    let q := s.cr c
    let base := recAddressA w.record
    let restarted := fun queue : List Completion => s.takeRecord.updateCr c (fun _ => { q with
      state := .active, base := if base = 0#64 then q.base else base, tail := 0, head := 0, unconsumed := 0, phase := true
      cause := .none, restoredRun := 0, queue := queue })
    let reply : Reply := { status := .success, count := BitVec.ofNat 32 q.deferred.length, wordA := BitVec.ofNat 64 q.cause.code }
    (q.state = .closed → exec .restartCompletionRing s = .next (s.takeRecord.answer w.ticket { status := .noSuchRing })) ∧
    (q.state = .active → exec .restartCompletionRing s = .next (s.takeRecord.answer w.ticket { status := .ringNotFailed })) ∧
    (q.state = .error → s.host.device = .ready → exec .restartCompletionRing s = .next
      ((q.queue.foldl (fun s record => s.takeForWriting c true record .completion) (restarted [])).answer w.ticket reply)) ∧
    (q.state = .error → s.host.device ≠ .ready → exec .restartCompletionRing s = .next ((restarted q.queue).answer w.ticket reply))

/-- Derived from R45, R101, R102 and R125: SET TIMEBASE is refused while an entry is in use or a reservation exists; otherwise N keeps its value, W becomes N,
the source, divisor and nominal period become the command's, what was counted is cleared, and an overrun has been caught up: the event is raised in
READY, and a FAILED device makes no such test (R44; outside READY by the model's reading, assumption log 17). That the loss window's moments count from here,
as 0, is the model's choice (log 9). -/
def Obligations.SetTimebaseSets : Prop :=
  ∀ (s : State) (w : Taken), s.Accepts .setTimebase w →
    let r := w.record
    let internal := recTimerKind r = 2#8
    (s.entries ≠ [] ∨ 0 < s.table.reservation →
      exec .setTimebase s = .next (s.takeRecord.answer w.ticket { status := .timersPresent })) ∧
    (s.entries = [] → s.table.reservation = 0 → ∃ t : State, exec .setTimebase s = .next (t.answer w.ticket
        { status := .success, wordA := BitVec.ofNat 64 s.timebase.time
          flags := BitVec.ofNat 16 (512 * (if internal then TimebaseState.freeRunning else .acquiring).code) }) ∧
      t.timebase =
        { time := s.timebase.time, state := if internal then .freeRunning else .acquiring
          source := if internal then .internal else .reference, divisor := some (recLengthA r)
          nominal := if internal then none else some (recLengthB r).toNat, edgeCounter := 0, equivalentStart := none
          goodRunCount := 0, runLengthSum := 0, measuredRatio := none, lastEdge := none, lossWindowStart := 0
          latch := s.timebase.latch } ∧
      t.wheel = { s.wheel with
        time := s.timebase.time, overrun := if s.host.device = .failed then s.wheel.overrun else false } ∧
      t.poster = (if s.wheel.overrun = true ∧ s.host.device = .ready then s.raise .wheelCaughtUp .timingWheel .none else s).poster ∧
      t.table = s.table ∧ t.expiry = s.expiry ∧ t.domains = s.domains ∧ t.host = s.host ∧ t.fetcher = s.takeRecord.fetcher ∧
      t.executor = s.takeRecord.executor ∧ t.transfer = s.transfer ∧ t.pending = s.pending)

/-! ### Domain commands -/

/-- Stated: R126, with R74's record: CREATE DOMAIN's field checks, its own check, and its effect. -/
def Obligations.CreateDomainCreates : Prop :=
  ∀ (s : State) (w : Taken), s.Takes .createDomain w → w.ticket.source = 0 →
    let n := recDomain w.record
    let quota := recLengthA w.record
    (63 < n ∨ quota < 1 ∨ 16384 < quota →
      exec .createDomain s = .next (s.takeRecord.answer w.ticket { status := .invalidField })) ∧
    ∀ dom : Fin 64, dom.val = n → 1 ≤ quota → quota ≤ 16384 →
      ((s.domain dom).state ≠ .free → exec .createDomain s = .next (s.takeRecord.answer w.ticket { status := .domainExists })) ∧
      ((s.domain dom).state = .free → exec .createDomain s = .next ((s.takeRecord.updateDomain dom (fun _ =>
        { state := .running, pauseDepth := 0, quota := some quota, inUse := 0, held := [], busy := .none, pauseStart := none
          walk := none })).answer w.ticket { status := .success }))

/-- Derived from R18, R84, R85 and R127: DESTROY DOMAIN without force frees the record of an empty domain; with force it starts the walk and ends for the
executor without a completion. Either form removes the marks that name the domain, and changes no entry. -/
def Obligations.DestroyDomainDestroys : Prop :=
  ∀ (s : State) (w : Taken), s.Canonical → s.Accepts .destroyDomain w →
    let dom := recDomainFin w.record
    let rec0 := s.domain dom
    let force := recForce w.record = true
    (rec0.state = .free → exec .destroyDomain s = .next (s.takeRecord.answer w.ticket { status := .noSuchDomain })) ∧
    (rec0.state ≠ .free → rec0.isBusy = true →
      exec .destroyDomain s = .next (s.takeRecord.answer w.ticket { status := .domainBusy })) ∧
    (rec0.state ≠ .free → rec0.isBusy = false → ¬ force → 0 < rec0.inUse →
      exec .destroyDomain s = .next (s.takeRecord.answer w.ticket { status := .domainNotEmpty })) ∧
    (rec0.state ≠ .free → rec0.isBusy = false → (force ∨ rec0.inUse = 0) →
      ∃ t : State, exec .destroyDomain s = .next (if force then t.endCommand w.ticket else t.answer w.ticket { status := .success }) ∧
        t.domain dom = (if force then
          { rec0 with state := .destroying, walk := some { position := 0, walkCount := 0, discardCount := 0, ticket := w.ticket } }
          else Domain.reset) ∧
        s.OnlyDomain t dom ∧ s.Unmarked t dom ∧ t.table.freeList = s.table.freeList ∧ s.SameReservation t ∧ t.wheel = s.wheel ∧
        t.expiry = s.expiry ∧ t.poster.rings = s.poster.rings ∧ s.takeRecord.OnlyTimers t)

/-- Derived from R86, R88 and R191: in READY a destroy walk visits the slot at its position, freeing and counting an entry of its domain and passing by any
other slot; past the last slot, and no sooner, it ends: the marks naming the domain go, the record is FREE, and the DESTROY completion counts what was
removed. (That the end too is taken in READY only is the model's reading: assumption log 18.) -/
def Obligations.DestroyWalkVisitsAndEnds : Prop :=
  (∀ (s : State) (dom : Fin 64), s.host.device ≠ .ready ∨ (s.domain dom).walk = none →
    exec (.destroyWalkVisit dom) s = .next s ∧ exec (.destroyWalkEnd dom) s = .next s) ∧
  ∀ (s : State) (dom : Fin 64) (w : DestroyWalk), s.host.device = .ready → (s.domain dom).walk = some w →
    (w.position < 16384 → exec (.destroyWalkEnd dom) s = .next s ∧
      (∀ e, s.entryAt w.position = some e → e.domain = dom → ∃ u : State, s.Freed u w.position e ∧
        exec (.destroyWalkVisit dom) s = .next (u.updateDomain dom (fun r => { r with
          walk := some { w with position := w.position + 1, walkCount := w.walkCount + 1 } }))) ∧
      ((∀ e, s.entryAt w.position = some e → e.domain ≠ dom) →
        exec (.destroyWalkVisit dom) s = .next (s.updateDomain dom (fun r => { r with
          walk := some { w with position := w.position + 1 } })))) ∧
    (16384 ≤ w.position → exec (.destroyWalkVisit dom) s = .next s ∧
      (s.Canonical → ∃ t : State, exec (.destroyWalkEnd dom) s = .next (t.reply w.ticket
          { status := .success, count := BitVec.ofNat 32 (w.walkCount + w.discardCount) }) ∧
        t.domain dom = Domain.reset ∧ s.OnlyDomain t dom ∧ s.Unmarked t dom ∧ t.table.freeList = s.table.freeList ∧ s.SameReservation t ∧
        t.wheel = s.wheel ∧ t.expiry = s.expiry ∧ t.poster.rings = s.poster.rings ∧ s.OnlyTimers t))

/-- Stated: R128 and R77: PAUSE DOMAIN's field check, its own checks, its effect on every record, and its completion. -/
def Obligations.PauseDomainPauses : Prop :=
  ∀ (s : State) (w : Taken), s.Takes .pauseDomain w → w.ticket.source = 0 →
    (63 < recDomain w.record → exec .pauseDomain s = .next (s.takeRecord.answer w.ticket { status := .invalidField })) ∧
    ∀ dom : Fin 64, dom.val = recDomain w.record →
      let r := s.domain dom
      (r.state = .free → exec .pauseDomain s = .next (s.takeRecord.answer w.ticket { status := .noSuchDomain })) ∧
      (r.state ≠ .free → 4 ≤ r.pauseDepth → exec .pauseDomain s = .next (s.takeRecord.answer w.ticket { status := .pauseLimit })) ∧
      (r.state ≠ .free → r.pauseDepth < 4 → exec .pauseDomain s = .next ((s.takeRecord.updateDomain dom (fun _ =>
        { r with
          pauseDepth := r.pauseDepth + 1
          state := if r.state = .running then .paused else r.state
          pauseStart := if r.pauseDepth = 0 then some w.takenAt else r.pauseStart })).answer w.ticket
        { status := .success, count := BitVec.ofNat 32 (r.pauseDepth + 1) }))

/-- Stated: R129 and R80, with R81 and the splice of R40: RESUME DOMAIN's field check, its own checks, and its two outcomes. The resume that brings the
depth to 0 makes the domain RUNNING and moves its held entries, in their order, to the tail of the due queue as DUE. -/
def Obligations.ResumeDomainResumes : Prop :=
  ∀ (s : State) (w : Taken), s.Takes .resumeDomain w → w.ticket.source = 0 →
    (63 < recDomain w.record → exec .resumeDomain s = .next (s.takeRecord.answer w.ticket { status := .invalidField })) ∧
    ∀ dom : Fin 64, dom.val = recDomain w.record →
      let r := s.domain dom
      (r.state = .free → exec .resumeDomain s = .next (s.takeRecord.answer w.ticket { status := .noSuchDomain })) ∧
      (r.state ≠ .free → r.isBusy = true → exec .resumeDomain s = .next (s.takeRecord.answer w.ticket { status := .domainBusy })) ∧
      (r.state ≠ .free → r.isBusy = false → r.pauseDepth = 0 →
        exec .resumeDomain s = .next (s.takeRecord.answer w.ticket { status := .notPaused })) ∧
      (r.state ≠ .free → r.isBusy = false → 2 ≤ r.pauseDepth → exec .resumeDomain s = .next
        ((s.takeRecord.updateDomain dom (fun _ => { r with pauseDepth := r.pauseDepth - 1 })).answer w.ticket
          { status := .success, count := BitVec.ofNat 32 (r.pauseDepth - 1), wordA := 0#64, wordB := 0#64 })) ∧
      (r.state ≠ .free → r.isBusy = false → r.pauseDepth = 1 → ∃ t : State, exec .resumeDomain s = .next (t.answer w.ticket
          { status := .success, count := 0#32, wordA := BitVec.ofNat 64 (w.takenAt - r.pauseStart.getD 0)
            wordB := BitVec.ofNat 64 r.held.length }) ∧
        t.domain dom = { r with pauseDepth := 0, state := .running, held := [], pauseStart := none } ∧ s.OnlyDomain t dom ∧
        t.wheel = { s.wheel with dueQueue := s.wheel.dueQueue ++ r.held } ∧
        (∀ k, t.rowAt k = if k ∈ r.held then
          { s.rowAt k with entry := (s.entryAt k).map (fun e => { e with phase := .due, location := some .dueQueue }) } else s.rowAt k) ∧
        t.table.freeList = s.table.freeList ∧ s.SameReservation t ∧ t.expiry = s.expiry ∧ t.poster.rings = s.poster.rings ∧
        s.takeRecord.OnlyTimers t)

/-! ### Transfer commands -/

/-- Derived from R130, R131, R174, R175, R177, R180 and R188: EXPORT and IMPORT DOMAIN make their checks in order; passing them, the job record is created, the
domain is busy with it, and the header's transfer is issued, unless a transfer of an ended job is still in flight or the device has left READY. The words
of an EXPORT's header are in its running sum once its write is issued. The job record is given whole: the fields that the spec gives no value are 0 or no by the
model's choice (assumption log 14), and those beyond R174's table are the model's own (log 20). -/
def Obligations.TransfersStart : Prop :=
  (∀ (s : State) (w : Taken), s.Accepts .exportDomain w →
    let r := w.record
    let n := recDomainFin r
    let dom := s.domain n
    let checks : List (Bool × Status) :=
      [(dom.state == .free, .noSuchDomain),
       (dom.state == .destroying || dom.busy != .none, .domainBusy),
       (s.transfer.job.isSome, .transferBusy),
       (dom.pauseDepth == 0, .domainNotPaused),
       (s.entries.any (fun p => p.2.domain == n && p.2.pendingExpiry.isSome), .expiriesPending),
       (decide (recLengthA r < 32 + 32 * dom.inUse + 8), .bufferTooSmall)]
    let begins := s.host.device = .ready ∧ s.transferring = false
    let header := encodeHeader n dom.inUse (BitVec.ofNat 8 s.timebase.source.code) (BitVec.ofNat 32 (s.timebase.divisor.getD 0)) s.timebase.time
    (∀ status, firstFailure checks = some status → exec .exportDomain s = .next (s.takeRecord.answer w.ticket { status := status })) ∧
    let job : Job :=
      { stage := .writing, domain := n, bufferAddress := recAddressA r, bufferLength := recLengthA r, handleAddress := 0#64, handleLength := 0
        release := recRelease r, exportStart := s.timebase.time, recordCount := dom.inUse, position := 0, recordsDone := 0
        runningSum := if begins then wordSum header else 0#32, pass1Sum := 0#32, ticket := w.ticket
        imageSource := BitVec.ofNat 8 s.timebase.source.code, imageDivisor := BitVec.ofNat 32 (s.timebase.divisor.getD 0)
        illFormed := false, ringRecords := Vector.replicate 8 0, ringHolds := Vector.replicate 8 0, creation := none }
    (firstFailure checks = none → exec .exportDomain s = .next (({ (s.takeRecord.updateDomain n (fun q => { q with busy := .exporting })) with
        transfer := { job := some job }
        host := { s.host with dma := if begins then s.host.dma ++ [.transferWrite true .header (recAddressA r) 32 header]
          else s.host.dma } } : State).endCommand w.ticket))) ∧
  ∀ (s : State) (w : Taken), s.Accepts .importDomain w →
    let r := w.record
    let n := recDomainFin r
    let dom := s.domain n
    let checks : List (Bool × Status) :=
      [(dom.state == .free, .noSuchDomain),
       (dom.state == .destroying || dom.busy != .none, .domainBusy),
       (s.transfer.job.isSome, .transferBusy),
       (dom.pauseDepth == 0, .domainNotPaused),
       (s.timebase.state == .stopped, .timebaseStopped)]
    (∀ status, firstFailure checks = some status → exec .importDomain s = .next (s.takeRecord.answer w.ticket { status := status })) ∧
    let job : Job :=
      { stage := .verifying, domain := n, bufferAddress := recAddressA r, bufferLength := recLengthA r, handleAddress := recAddressB r
        handleLength := (recLengthB r).toNat, release := false, exportStart := 0, recordCount := 0, position := 0, recordsDone := 0
        runningSum := 0#32, pass1Sum := 0#32, ticket := w.ticket, imageSource := 0#8, imageDivisor := 0#32, illFormed := false
        ringRecords := Vector.replicate 8 0, ringHolds := Vector.replicate 8 0, creation := none }
    (firstFailure checks = none → exec .importDomain s = .next (({ (s.takeRecord.updateDomain n (fun q => { q with busy := .importing })) with
        transfer := { job := some job }
        host := { s.host with dma := if s.host.device = .ready ∧ s.transferring = false
          then s.host.dma ++ [.transferRead true .header (recAddressA r) 32] else s.host.dma } } : State).endCommand w.ticket))

/-- Derived from R132, R174, R175, R177, R186, R187 and R188: ABORT TRANSFER without a job is answered NO_TRANSFER; with one, in READY, the job ends ABORTED and its
completion is handed before the ABORT's. A bus error of the job's transfer in READY ends it BUS_ERROR. Each ends an EXPORT with the count of its records
done, and rolls back an IMPORT in CREATING. The end of a transfer whose job has ended only lets a job accepted since then begin, an EXPORT's with the
words of its header summed; outside READY it is discarded. With no transfer in flight a bus error is nobody's, and changes nothing (log 5). (That an ABORT taken before the device left READY ends no job there is the model's reading:
assumption log 18.) -/
def Obligations.TransfersFail : Prop :=
  (∀ (s : State) (w : Taken), s.Accepts .abortTransfer w →
    (s.transfer.job = none → exec .abortTransfer s = .next (s.takeRecord.answer w.ticket { status := .noTransfer })) ∧
    ∀ j, s.transfer.job = some j →
      (s.host.device ≠ .ready → exec .abortTransfer s = .next s) ∧
      (s.host.device = .ready → j.stage = .writing ∨ j.stage = .releasing → exec .abortTransfer s = .next
        ((s.takeRecord.endJob j .aborted j.recordsDone 0#64).answer w.ticket { status := .success })) ∧
      (s.host.device = .ready → j.stage = .verifying → exec .abortTransfer s = .next
        ((s.takeRecord.endJob j .aborted 0 0#64).answer w.ticket { status := .success })) ∧
      (s.host.device = .ready → j.stage = .creating → exec .abortTransfer s = .next
        (((s.takeRecord.rollback j.domain).endJob j .aborted 0 0#64).answer w.ticket { status := .success }))) ∧
  (∀ s : State, s.host.dma.find? DmaRequest.ofTransfer = none → exec .transferBusError s = .next s) ∧
  ∀ (s : State) (q : DmaRequest), s.host.dma.find? DmaRequest.ofTransfer = some q →
    let ended := s.endDma DmaRequest.ofTransfer
    (s.host.device ≠ .ready → exec .transferBusError s = .next ended) ∧
    (s.host.device = .ready → s.transfer.job = none → exec .transferBusError s = .next ended) ∧
    ∀ j, s.host.device = .ready → s.transfer.job = some j →
      let begun := if j.stage = .writing ∨ j.stage = .releasing then { j with runningSum := j.runningSum + wordSum j.header } else j
      (q.isLive = false → exec .transferBusError s = .next
        (({ ended with transfer := { job := some begun } } : State).pushDma j.firstTransfer)) ∧
      (q.isLive = true → j.stage = .writing ∨ j.stage = .releasing →
        exec .transferBusError s = .next (ended.endJob j .busError j.recordsDone 0#64)) ∧
      (q.isLive = true → j.stage = .verifying → exec .transferBusError s = .next (ended.endJob j .busError 0 0#64)) ∧
      (q.isLive = true → j.stage = .creating → exec .transferBusError s = .next ((ended.rollback j.domain).endJob j .busError 0 0#64))

/-- Derived from R13, R14, R15, R20, R65, R174, R175, R182, R185 and R186: a job's end removes its record and its ring holds, frees its domain of it, and hands its
completion; a rollback frees the entries that carry the import mark, no other, each with the place, the bound count and the fault trip that R14, R15 and
R65 give it (`State.Freed`), and returns what is left of the reservation. (The order of the frees is open: assumption log 4.) -/
def Obligations.JobsEndAndRollBack : Prop :=
  (∀ (s : State) (j : Job) (status : Status) (n : Nat) (wordA : DWord), ∃ t : State,
    s.endJob j status n wordA = t.reply j.ticket { status := status, count := BitVec.ofNat 32 n, wordA := wordA } ∧
    t.transfer.job = none ∧ t.domain j.domain = { s.domain j.domain with busy := .none } ∧ s.OnlyDomain t j.domain ∧
    t.table = { s.table with waiting := s.table.waiting.filter (· != .creation) } ∧
    t.host = { s.host with dma := s.host.dma.map DmaRequest.orphan } ∧
    t.fetcher = s.fetcher ∧ t.executor = s.executor ∧ t.wheel = s.wheel ∧ t.expiry = s.expiry ∧ t.timebase = s.timebase ∧
    t.poster = s.poster ∧ t.choices = s.choices ∧ t.pending = s.pending) ∧
  ∀ (s : State) (d : Fin 64), s.TableLegal →
    let t := s.rollback d
    let marked := fun k => ∃ e, s.entryAt k = some e ∧ e.importMark = true
    (∀ k, marked k → t.rowAt k = { generation := nextGeneration (s.generationAt k), entry := none, mark := none }) ∧
    (∀ k, ¬ marked k → t.rowAt k = s.rowAt k) ∧
    t.table.reservation = 0 ∧ t.table.waiting = s.table.waiting ∧
    (∃ (freed : List Nat) (u : State), freed.Nodup ∧ (∀ k, k ∈ freed ↔ marked k) ∧ t.table.freeList = s.table.freeList ++ freed ∧
      ({ s with choices := t.choices } : State).FreedInTurn freed u ∧
      t = ({ u with table := { u.table with reservation := 0 } } : State).updateDomain d (fun r =>
        { r with inUse := r.inUse - s.table.reservation }) ∧
      ((∀ k e, s.entryAt k = some e → e.importMark = true → e.domain = d) →
        (t.domain d).inUse = (s.domain d).inUse - freed.length - s.table.reservation ∧ s.OnlyDomain t d)) ∧
    t.timebase = s.timebase ∧ t.host = s.host ∧ t.fetcher = s.fetcher ∧ t.executor = s.executor ∧ t.transfer = s.transfer ∧
    t.wheel.time = s.wheel.time ∧ t.poster.events = s.poster.events

/-! ### The register window and the device states -/

/-- Derived from R135, R143 and R191: a tail write is honoured in READY of an ACTIVE ring; an index below the size becomes the tail, any other makes an
I/O ring fail, and SR0 the device. -/
def Obligations.TailWriteSetsTail : Prop :=
  ∀ (s : State) (i : Fin 8) (v : Word),
    (s.host.device ≠ .ready ∨ (s.sr i).state ≠ .active → exec (.srTailWrite i v) s = .next s) ∧
    (s.host.device = .ready → (s.sr i).state = .active →
      (v.toNat < (s.sr i).size → exec (.srTailWrite i v) s = .next (s.updateSr i (fun r => { r with tail := v.toNat }))) ∧
      ((s.sr i).size ≤ v.toNat → i ≠ 0 → exec (.srTailWrite i v) s = .next
        ((s.updateSr i (fun r => { r with state := .error, cause := .badIndex })).raise .ringError (.submissionRing i) .badIndex)) ∧
      ((s.sr i).size ≤ v.toNat → i = 0 → exec (.srTailWrite i v) s = .next
        { s with host := { s.host with device := .failed, fatalCause := .badAdminIndex } }))

/-- Derived from R155 and R191: a head write of READY is honoured by an open ring. A head that is `k` slots on, with at most the unconsumed records
released, becomes the head and releases those `k`; one further on, or not below the size, is a bad index, which an ACTIVE I/O ring answers with
ERROR, CR0 with a fatal fault, and a ring in ERROR not at all. -/
def Obligations.HeadWriteReleases : Prop :=
  ∀ (s : State) (c : Fin 8) (v : Word),
    let r := s.cr c
    (s.host.device ≠ .ready ∨ r.state = .closed → exec (.crHeadWrite c v) s = .next s) ∧
    (s.host.device = .ready → r.state ≠ .closed → r.head < r.size →
      (∀ k, k < r.size → (r.head + k) % r.size = v.toNat → k ≤ r.unconsumed → exec (.crHeadWrite c v) s = .next
        (s.updateCr c (fun _ => { r with head := v.toNat, unconsumed := r.unconsumed - k }))) ∧
      ((r.size ≤ v.toNat ∨ ∃ k, k < r.size ∧ (r.head + k) % r.size = v.toNat ∧ r.unconsumed < k) →
        (r.state = .error → exec (.crHeadWrite c v) s = .next s) ∧
        (r.state = .active → c ≠ 0 → exec (.crHeadWrite c v) s = .next
          ((s.updateCr c (fun _ => { r with state := .error, cause := .badIndex, unnotified := 0, delayCount := none })).raise
            .ringError (.completionRing c) .badIndex)) ∧
        (r.state = .active → c = 0 → exec (.crHeadWrite c v) s = .next
          { s with host := { s.host with device := .failed, fatalCause := .badAdminIndex } })))

/-- Derived from R190, R192, R193, R194 and R195 (R22, R47, R71, R90, R105, R106, R150, R173, R188): enabling, the start of the drain, the disable, and the
two resets. Which values stay is said in full: a disable keeps the admin configuration, the two causes and ENABLE; a device reset clears ENABLE
and the fatal cause and keeps the admin configuration; the power-on reset keeps nothing of the engine's. A write of ENABLE's present value has no
effect (assumption log 25). The drain waits for a wheel step and for the claims of the command in EXECUTING, but not for an ABORT whose job no longer ends (the
model's reading, log 18). By the model's choice, SR0 has weight 0 and a CLOSED ring 0 in its absent fields (log 14), and `readData` (log 13), `choices` (log 4),
`pending`, the number of the next write (log 23), the weight of the grant (log 32) and the monitor's origin (log 9) are the model's own, with the reset values given there. -/
def Obligations.DeviceStatesChange : Prop :=
  ∀ s : State,
    let size := fun w : Word => ∃ n, 4 ≤ n ∧ n ≤ 12 ∧ w.toNat = 2 ^ n
    let a := s.host.admin
    let valid := size a.srSize ∧ size a.crSize ∧ 64 ∣ a.srBase.toNat ∧ 64 ∣ a.crBase.toNat ∧ 4 ∣ a.msgAddress.toNat
    let enabled := fun t : State => { (t.updateSr 0 (fun _ =>
        { state := .active, base := a.srBase, size := a.srSize.toNat, head := 0, tail := 0, paired := 0, weight := 0, cause := .none })).updateCr 0
      (fun _ => { CompletionRing.reset with
        state := .active, base := a.crBase, size := a.crSize.toNat, phase := true, messageAddress := a.msgAddress, messageData := a.msgData
        interrupts := true, moderationCount := 1, moderationDelay := 0 }) with
      host := { t.host with device := .ready, enable := true, fatalCause := .none } }
    let refused := fun t : State => { t with host := { t.host with device := .failed, enable := true, fatalCause := .badAdminConfig } }
    let empty := fun h : HostPort => { State.reset with host := h, choices := s.choices, pending := s.pending }
    let disabled := empty { s.host with device := .disabled, dma := [] }
    let claiming :=
      (∃ w, s.executor.state = .executing w ∧
        ¬ (kindOf w.record = some .abortTransfer ∧ w.ticket.source = 0 ∧ s.transfer.job ≠ none)) ∨
      ((∃ w, s.executor.state = .waiting w) ∧ s.headMarked = false ∧ s.table.waiting.head? = some .arm)
    (s.host.enable = true → exec .enableSet s = .next s) ∧
    (s.host.enable = false →
      (s.host.device ≠ .disabled → exec .enableSet s = .next { s with host := { s.host with enable := true } }) ∧
      (s.host.device = .disabled → valid → exec .enableSet s = .next (enabled s)) ∧
      (s.host.device = .disabled → ¬ valid → exec .enableSet s = .next (refused s))) ∧
    (s.host.enable = false → exec .enableClear s = .next s) ∧
    (s.host.enable = true → exec .enableClear s = .next { s with host := { s.host with
      enable := false
      device := if s.host.device = .ready ∨ s.host.device = .failed then .stopping else s.host.device } }) ∧
    (s.host.device ≠ .stopping ∨ s.host.dma ≠ [] ∨ s.wheel.step ≠ none ∨ claiming → exec .disable s = .next s) ∧
    (s.host.device = .stopping → s.host.dma = [] → s.wheel.step = none → ¬ claiming →
      (s.host.enable = false → exec .disable s = .next disabled) ∧
      (s.host.enable = true → valid → exec .disable s = .next (enabled disabled)) ∧
      (s.host.enable = true → ¬ valid → exec .disable s = .next (refused disabled))) ∧
    exec .deviceReset s = .next (empty { HostPort.reset with resetCause := .deviceReset, admin := a, readData := s.host.readData }) ∧
    exec .powerOnReset s = .next (empty { HostPort.reset with readData := s.host.readData })

/-- Derived from R103, R135, R155, R197, R198, R199, R200, R202, R203 and section 11.2: what a read of each word returns; that a read which covers DEVICE_TIME's low
word returns the bytes or words it covers, the low word's of N, and fills the latch with the high half of the same N. A word written to CONTROL, to a tail or to a
head register is that register's own command; an admin configuration register is written outside READY only; any other word, and any write narrower than
a word, has no effect; a wider write is its words, the lowest address first. (`readData` is the model's own: assumption log 13. The silicon revision is a
free value: log 3.) -/
def Obligations.WindowReadsAndWrites : Prop :=
  ∀ s : State,
    let a := s.host.admin
    let low := (BitVec.ofNat 64 s.timebase.time).extractLsb' 0 32
    let high := (BitVec.ofNat 64 s.timebase.time).extractLsb' 32 32
    let returned := fun data : RegisterData => ({ s with
      host := { s.host with readData := data }, timebase := { s.timebase with latch := high } } : State)
    (s.timebase.time ≤ 2 ^ 64 - 1 → high.toNat * 2 ^ 32 + low.toNat = s.timebase.time) ∧
    ((s.readRegister 0x000).extractLsb' 0 16 = 0x0668#16 ∧ (s.readRegister 0x000).extractLsb' 16 8 = Config.siliconRevision ∧
      (s.readRegister 0x000).extractLsb' 24 8 = 0xB6#8) ∧
    s.readRegister 0x004 = (if s.host.enable then 1#32 else 0#32) ∧
    s.readRegister 0x008 = BitVec.ofNat 32 (s.host.device.code + 16 * s.host.fatalCause.code + 256 * s.host.resetCause.code +
      512 * (if 0 < s.expiry.faultTrips then 1 else 0)) ∧
    (s.readRegister 0x014 ++ s.readRegister 0x010 = a.srBase ∧ s.readRegister 0x018 = a.srSize ∧
      s.readRegister 0x024 ++ s.readRegister 0x020 = a.crBase ∧ s.readRegister 0x028 = a.crSize ∧
      s.readRegister 0x034 ++ s.readRegister 0x030 = a.msgAddress ∧ s.readRegister 0x038 = a.msgData) ∧
    (s.readRegister 0x040 = low ∧ s.readRegister 0x044 = s.timebase.latch) ∧
    (∀ i : Fin 8, s.readRegister (0x100 + 4 * i.val) = BitVec.ofNat 32 (s.sr i).tail ∧
      s.readRegister (0x140 + 4 * i.val) = BitVec.ofNat 32 (s.cr i).head) ∧
    (∀ offset, offset ∉ [0x000, 0x004, 0x008, 0x010, 0x014, 0x018, 0x020, 0x024, 0x028, 0x030, 0x034, 0x038, 0x040, 0x044] →
      (∀ i : Fin 8, offset ≠ 0x100 + 4 * i.val ∧ offset ≠ 0x140 + 4 * i.val) → s.readRegister offset = 0#32) ∧
    (∀ i : Fin 4, exec (.deviceTimeLowRead (0x040 + i.val) .byte) s = .next (returned (.byte (low.extractLsb' (8 * i.val) 8)))) ∧
    (∀ i : Fin 3, exec (.deviceTimeLowRead (0x040 + i.val) .half) s = .next (returned (.half (low.extractLsb' (8 * i.val) 16)))) ∧
    (∀ i : Fin 2, exec (.deviceTimeLowRead (0x040 + i.val) .threeBytes) s =
      .next (returned (.threeBytes (low.extractLsb' (8 * i.val) 24)))) ∧
    (∀ before after : Nat, before ≤ 16 → exec (.deviceTimeLowRead (0x040 - 4 * before) (.words (before + (after + 1)))) s =
      .next (returned (.words ((List.range (before + (after + 1))).map (fun i =>
        let offset := 0x040 - 4 * before + 4 * i
        if offset = 0x044 then high else s.readRegister offset))))) ∧
    (∀ offset value, exec (.registerWrite offset .byte value) s = .next s ∧ exec (.registerWrite offset .half value) s = .next s ∧
      exec (.registerWrite offset .threeBytes value) s = .next s) ∧
    (∀ offset, exec (.registerWrite offset (.words 0) []) s = .next s) ∧
    (∀ offset count v rest u, exec (.registerWrite offset (.words 1) [v]) s = .next u →
      exec (.registerWrite offset (.words (count + 1)) (v :: rest)) s = exec (.registerWrite (offset + 4) (.words count) rest) u) ∧
    ∀ v : Word,
      let admin := fun a' : AdminRegisters => ({ s with host := { s.host with admin := a' } } : State)
      exec (.registerWrite 0x004 (.words 1) [v]) s =
        exec (if v.getLsbD 1 then .deviceReset else if v.getLsbD 0 then .enableSet else .enableClear) s ∧
      (∀ i : Fin 8, exec (.registerWrite (0x100 + 4 * i.val) (.words 1) [v]) s = exec (.srTailWrite i v) s ∧
        exec (.registerWrite (0x140 + 4 * i.val) (.words 1) [v]) s = exec (.crHeadWrite i v) s) ∧
      (s.host.device ≠ .ready →
        exec (.registerWrite 0x010 (.words 1) [v]) s = .next (admin { a with srBase := a.srBase.extractLsb' 32 32 ++ v }) ∧
        exec (.registerWrite 0x014 (.words 1) [v]) s = .next (admin { a with srBase := v ++ a.srBase.extractLsb' 0 32 }) ∧
        exec (.registerWrite 0x018 (.words 1) [v]) s = .next (admin { a with srSize := v }) ∧
        exec (.registerWrite 0x020 (.words 1) [v]) s = .next (admin { a with crBase := a.crBase.extractLsb' 32 32 ++ v }) ∧
        exec (.registerWrite 0x024 (.words 1) [v]) s = .next (admin { a with crBase := v ++ a.crBase.extractLsb' 0 32 }) ∧
        exec (.registerWrite 0x028 (.words 1) [v]) s = .next (admin { a with crSize := v }) ∧
        exec (.registerWrite 0x030 (.words 1) [v]) s = .next (admin { a with msgAddress := a.msgAddress.extractLsb' 32 32 ++ v }) ∧
        exec (.registerWrite 0x034 (.words 1) [v]) s = .next (admin { a with msgAddress := v ++ a.msgAddress.extractLsb' 0 32 }) ∧
        exec (.registerWrite 0x038 (.words 1) [v]) s = .next (admin { a with msgData := v })) ∧
      (∀ offset, offset ≠ 0x004 → (∀ i : Fin 8, offset ≠ 0x100 + 4 * i.val ∧ offset ≠ 0x140 + 4 * i.val) →
        s.host.device = .ready ∨ offset ∉ [0x010, 0x014, 0x018, 0x020, 0x024, 0x028, 0x030, 0x034, 0x038] →
        exec (.registerWrite offset (.words 1) [v]) s = .next s)

/-! ### Fetching -/

/-- Derived from R106, R136, R138, R139, R140, R145 and R148: with the path IDLE in READY, SR0 is served when eligible; otherwise the holder of the grant while it is
eligible and its used count below the weight it got the grant with; otherwise the eligible I/O ring that comes first after the holder in number order,
wrapping from SR7 to SR1, which then holds the grant with a used count of 1 and its present weight. Serving a ring reserves a slot of its paired ring and
issues the read of the record at its head. Where the executor may take the delivered record, the arbitration finds the path freed by that take, and the
command EXECUTING; but a KICK's, a READ STATUS's, a PAUSE DOMAIN's or a RESUME DOMAIN's record it leaves, whose take and claim are one step (the model's reading, assumption
log 6). That a holder which has been closed keeps its grant while SR0 is served is the model's
choice (log 32). -/
def Obligations.ArbitrationServes : Prop :=
  (∀ (s : State) (d : Delivered), s.takeable = some d → kindOf d.record ∉ [some .kick, some .readStatus, some .pauseDomain, some .resumeDomain] →
    exec .arbitration s = exec .arbitration s.takeRecord) ∧
  ∀ s : State, (∀ d, s.takeable = some d → kindOf d.record ∈ [some .kick, some .readStatus, some .pauseDomain, some .resumeDomain]) →
    let eligible := fun i : Fin 8 =>
      let c := s.cr (s.sr i).paired
      (s.sr i).state = .active ∧ (s.sr i).tail ≠ (s.sr i).head ∧ c.state = .active ∧ 1 ≤ c.size - 1 - c.unconsumed - c.reserved
    let holds := fun i : Fin 8 => s.fetcher.grant = some i ∧ eligible i ∧ s.fetcher.used < s.fetcher.grantWeight
    let turn := fun i : Fin 8 => (i.val + 6 - ((s.fetcher.grant.map Fin.val).getD 7)) % 7
    let served := fun (i : Fin 8) (grant : Option (Fin 8)) (used weight : Nat) =>
      let q := s.sr i
      ({ (s.updateCr q.paired (fun c => { c with reserved := c.reserved + 1 })) with
        host := { s.host with dma := s.host.dma ++ [.fetchRead i (q.base + BitVec.ofNat 64 (64 * q.head))] }
        fetcher := { s.fetcher with
          path := .reading { source := i, headSlot := q.head, ring := q.paired }, grant := grant, used := used
          grantWeight := weight } } : State)
    (s.host.device ≠ .ready ∨ s.fetcher.path ≠ .idle ∨ (∀ i, ¬ eligible i) → exec .arbitration s = .next s) ∧
    (s.host.device = .ready → s.fetcher.path = .idle →
      (eligible 0 → exec .arbitration s = .next (served 0 s.fetcher.grant s.fetcher.used s.fetcher.grantWeight)) ∧
      (¬ eligible 0 →
        (∀ i, holds i → exec .arbitration s = .next (served i s.fetcher.grant (s.fetcher.used + 1) s.fetcher.grantWeight)) ∧
        ((∀ i, ¬ holds i) → ∀ i, i ≠ 0 → eligible i → (∀ j, j ≠ 0 → eligible j → turn i ≤ turn j) →
          exec .arbitration s = .next (served i (some i) 1 (s.sr i).weight))))

/-- Derived from R138, R141, R142, R143, R146 and R148: the end of the fetch read in READY. A record that arrives frees its slot and stands in the input
place; a bus error fails the device when the ring is SR0, and otherwise returns the reservation, raises RING_ERROR, and fails an ACTIVE ring; one
that was CLOSING is CLOSED, and its held completion is handed. A ring that has become CLOSED since the fetch started is left as it is, also when opened
again (the model's reading, assumption log 31). Outside READY the end is discarded. -/
def Obligations.FetchReadEnds : Prop :=
  ∀ (s : State) (record : CommandBits),
    ((∀ f, s.fetcher.path ≠ .reading f) → exec (.recordArrival record) s = .next s ∧ exec .readBusError s = .next s) ∧
    ∀ f, s.fetcher.path = .reading f →
      let i := f.source
      let q := s.sr i
      let ended := fun p : FetchPath =>
        ({ s with host := { s.host with dma := s.host.dma.eraseP DmaRequest.ofFetcher }, fetcher := { s.fetcher with path := p } } : State)
      let returned := (((ended .idle).updateCr f.ring (fun c => { c with reserved := c.reserved - 1 })).updateSr i (fun _ =>
        if q.state = .active ∧ !f.ringClosed then { q with state := .error, cause := .busError } else q)).raise .ringError (.submissionRing i) .busError
      (s.host.device ≠ .ready →
        exec (.recordArrival record) s = .next (ended .idle) ∧ exec .readBusError s = .next (ended .idle)) ∧
      (s.host.device = .ready →
        exec (.recordArrival record) s = .next
          { ((ended (.delivered f)).updateSr i (fun _ =>
              if q.state = .closed ∨ f.ringClosed then q else { q with head := if q.head + 1 < q.size then q.head + 1 else 0 })) with
            executor := { s.executor with input := some { record := record, source := i, ring := f.ring } } } ∧
        (i = 0 → exec .readBusError s = .next
          { ended .idle with host := { (ended .idle).host with device := .failed, fatalCause := .sr0ReadError } }) ∧
        (i ≠ 0 → q.state ≠ .closing → exec .readBusError s = .next returned) ∧
        (i ≠ 0 → q.state = .closing →
          let closed := returned.updateSr i (fun _ => SubmissionRing.reset)
          (s.executor.held = none → exec .readBusError s = .next closed) ∧
          ∀ h, s.executor.held = some h → exec .readBusError s = .next
            (({ closed with executor := { s.executor with held := none } } : State).handCompletion h.ring h.completion)))

/-! ### Time -/

/-- Derived from R42, R91, R94, R100 and R162: a tick event raises N by one, up to 2^64 − 1; finds the wheel overrun when it lags by more than 4,096; and counts
in every running moderation delay, sending the messages that fall due, in an order that the spec leaves open (assumption log 4). TICK_EVENT is
that event in READY and FREE_RUNNING; in LOCKED and HOLDOVER it comes within the step whose edge completes the divisor (the model's reading, log 7). -/
def Obligations.TickAdvancesTime : Prop :=
  ∀ s : State,
    let now := min (2 ^ 64 - 1) (s.timebase.time + 1)
    let lags := s.wheel.overrun = false ∧ 4096 < now - s.wheel.time
    let later : State := { s with timebase := { s.timebase with time := now } }
    let message := fun c : Fin 8 => DmaRequest.messageWrite c (s.cr c).messageAddress (s.cr c).messageData
    let counted := fun r : CompletionRing => r.delayCount.map (· + 1)
    let due := fun c : Fin 8 =>
      let r := s.cr c
      r.interrupts = true ∧ 0 < r.moderationDelay ∧ ∃ n, counted r = some n ∧ r.moderationDelay ≤ n
    let t := s.tick
    (s.host.device ≠ .ready ∨ s.timebase.state ≠ .freeRunning → exec .tickEvent s = .next s) ∧
    (s.host.device = .ready → s.timebase.state = .freeRunning → exec .tickEvent s = .next t) ∧
    ∃ messages : List (Fin 8),
      t.timebase = { s.timebase with time := now } ∧
      t.wheel = { s.wheel with overrun := decide (lags ∨ s.wheel.overrun = true) } ∧
      t.poster.events = (if lags then later.raise .wheelOverrun .timingWheel .none else s).poster.events ∧
      messages.Nodup ∧ (∀ c, c ∈ messages ↔ due c) ∧
      t.host = { s.host with dma := s.host.dma ++ messages.map message } ∧
      (∀ c, due c → t.cr c = { s.cr c with unnotified := 0, delayCount := none }) ∧
      (∀ c, ¬ due c → t.cr c = { s.cr c with delayCount := counted (s.cr c) }) ∧
      t.table = s.table ∧ t.expiry = s.expiry ∧ t.domains = s.domains ∧ t.poster.writes = s.poster.writes ∧ t.fetcher = s.fetcher ∧
      t.executor = s.executor ∧ t.transfer = s.transfer ∧ t.pending = s.pending

/-- Derived from R95, R97, R98 and R99: an edge that the monitor sees in READY. It judges the interval since the last edge; the edge that completes 1,024
consecutive intervals within an eighth of the nominal period sets the measured ratio, brings ACQUIRING and HOLDOVER to LOCKED, and is GOOD_RUN's
edge also (assumption log 30). By the model's choice an edge comes with its time `elapsed` since the window's start, which any edge may have (log 8), and moments
count from the last SET TIMEBASE (log 9). In LOCKED every edge is counted, and the one that completes the divisor makes a tick event. -/
def Obligations.EdgesAreJudgedAndCounted : Prop :=
  ∀ (s : State) (elapsed : Nat),
    let b := s.timebase
    let monitors := b.state = .acquiring ∨ b.state = .locked ∨ b.state = .holdover
    let now := b.lossWindowStart + elapsed
    let within := fun i : Nat => 7 * b.nominal.getD 0 ≤ 8 * i ∧ 8 * i ≤ 9 * b.nominal.getD 0
    let completes := ∃ last, b.lastEdge = some last ∧ within (now - last) ∧ 1024 ≤ b.goodRunCount + 1
    let judged : Timebase := { (match b.lastEdge with
      | none => b
      | some last =>
        if within (now - last) then { b with goodRunCount := b.goodRunCount + 1, runLengthSum := b.runLengthSum + (now - last) }
        else { b with goodRunCount := 0, runLengthSum := 0 }) with lastEdge := some now, lossWindowStart := now }
    let completed : Timebase := { b with
      measuredRatio := some (b.runLengthSum + (now - b.lastEdge.getD 0)), goodRunCount := 0, runLengthSum := 0
      lastEdge := some now, lossWindowStart := now }
    let counts := fun (i : Instr) (b' : Timebase) =>
      (b'.edgeCounter + 1 < b'.divisor.getD 0 → exec i s = .next { s with timebase := { b' with edgeCounter := b'.edgeCounter + 1 } }) ∧
      (b'.divisor.getD 0 ≤ b'.edgeCounter + 1 →
        exec i s = .next (State.tick { s with timebase := { b' with edgeCounter := 0 } }))
    (s.host.device ≠ .ready ∨ ¬ monitors → exec (.refinEdge elapsed) s = .next s ∧ exec (.goodRun elapsed) s = .next s) ∧
    (s.host.device = .ready → monitors → ¬ completes →
      exec (.goodRun elapsed) s = .next s ∧
      (b.state ≠ .locked → exec (.refinEdge elapsed) s = .next { s with timebase := judged }) ∧
      (b.state = .locked → counts (.refinEdge elapsed) judged)) ∧
    (s.host.device = .ready → monitors → completes → ∀ i, i = Instr.refinEdge elapsed ∨ i = Instr.goodRun elapsed →
      (b.state = .acquiring → exec i s = .next
        { s with timebase := { completed with state := .locked, edgeCounter := 0, equivalentStart := none } }) ∧
      (b.state = .holdover → exec i s = .next
        (({ s with timebase := { completed with state := .locked, equivalentStart := none } } : State).raise
          .referenceRestored .timebase .none)) ∧
      (b.state = .locked → counts i completed))

/-- Derived from R92, R94, R96, R98 and R99: a loss in READY clears what the monitor counted and restarts its window; in LOCKED it begins HOLDOVER, counting the
edge equivalents that four nominal periods hold, with the ticks they complete, and then raises REFERENCE_LOST. The
equivalent then in progress is reckoned from a whole number of ratios after the last edge, the rest of the four periods being carried forward. In HOLDOVER
an edge equivalent counts as an edge does, and the next is reckoned from one ratio, with its fraction, after it (assumption log 10). Outside READY, and in the states that
have no such event, neither has an effect. What counting is: the edge counter rises by one, or, where that reaches the divisor, returns to 0 with a tick
event. Lengths are in 1/1,024 monitor units. -/
def Obligations.LossBeginsHoldover : Prop :=
  ∀ s : State,
    let b := s.timebase
    let lost : Timebase := { b with
      goodRunCount := 0, runLengthSum := 0, lastEdge := none, lossWindowStart := b.lossWindowStart + 4 * b.nominal.getD 0 }
    let length := 4 * b.nominal.getD 0 * 1024
    let ratio := b.measuredRatio.getD 0
    let began := 1024 * b.lossWindowStart + ratio * (length / ratio)
    let inHoldover : State := { s with timebase := { lost with state := .holdover, equivalentStart := some began } }
    let edges := b.edgeCounter + length / ratio
    let divisor := b.divisor.getD 1
    (s.host.device ≠ .ready → exec .loss s = .next s ∧ exec .edgeEquivalent s = .next s) ∧
    (s.host.device = .ready →
      (b.state = .stopped ∨ b.state = .freeRunning → exec .loss s = .next s) ∧
      (b.state = .acquiring ∨ b.state = .holdover → exec .loss s = .next { s with timebase := lost }) ∧
      (b.state = .locked → exec .loss s =
        .next ((State.countEdges (length / ratio) inHoldover).raise .referenceLost .timebase .none)) ∧
      (b.state ≠ .holdover → exec .edgeEquivalent s = .next s) ∧
      (b.state = .holdover → ∀ start, b.equivalentStart = some start →
        exec .edgeEquivalent s = .next (State.countEdges 1 { s with timebase := { b with equivalentStart := some (start + ratio) } }))) ∧
    1024 * lost.lossWindowStart = began + length % ratio ∧
    (State.countEdges 0 s = s ∧ ∀ n, State.countEdges (n + 1) s = State.countEdges n
      (if b.edgeCounter + 1 < b.divisor.getD 0 then { s with timebase := { b with edgeCounter := b.edgeCounter + 1 } }
       else State.tick { s with timebase := { b with edgeCounter := 0 } })) ∧
    (s.TimebaseLegal → b.state = .locked → (State.countEdges (length / ratio) inHoldover).timebase = { lost with
      state := .holdover, equivalentStart := some began, edgeCounter := edges % divisor
      time := if edges / divisor = 0 then b.time else min (2 ^ 64 - 1) (b.time + edges / divisor) })

/-! ### The Timing Wheel -/

/-- Derived from R32, R33, R43, R44 and R164: a step begins in READY when W is below N and none is in progress, by setting W to W+1; at a multiple of
2^24 the entries then in the overflow list are to be swept. It ends when the sweep, the cascades and the emptying have nothing left to move; an
overrun wheel that has then caught up is no longer overrun, and in READY the event is raised; a FAILED device makes no such test (R44). (That the flag is cleared
in STOPPING and nothing is raised there is the model's reading: assumption log 17.) -/
def Obligations.WheelStepBeginsAndEnds : Prop :=
  ∀ s : State,
    let w := s.wheel
    let left := (∃ p, w.step = some p ∧ 0 < p.sweepLeft) ∨
      (∃ l : Fin 4, l ≠ 0 ∧ w.time % 64 ^ l.val = 0 ∧ s.wheelSlot l (Fin.ofNat 64 (w.time / 64 ^ l.val)) ≠ []) ∨
      s.wheelSlot 0 (Fin.ofNat 64 w.time) ≠ []
    (s.host.device ≠ .ready ∨ s.timebase.time ≤ w.time ∨ w.step ≠ none → exec .wheelStep s = .next s) ∧
    (s.host.device = .ready → w.time < s.timebase.time → w.step = none → exec .wheelStep s = .next
      { s with wheel := { w with
        time := w.time + 1, step := some { sweepLeft := if 2 ^ 24 ∣ w.time + 1 then w.overflow.length else 0 } } }) ∧
    (w.step = none ∨ left → exec .stepEnd s = .next s) ∧
    (w.step ≠ none → ¬ left →
      (s.host.device = .ready → w.overrun = true → w.time = s.timebase.time → exec .stepEnd s = .next
        (({ s with wheel := { w with step := none, overrun := false } } : State).raise .wheelCaughtUp .timingWheel .none)) ∧
      (s.host.device = .stopping ∨ s.host.device = .disabled → w.overrun = true → w.time = s.timebase.time → exec .stepEnd s = .next
        { s with wheel := { w with step := none, overrun := false } }) ∧
      (s.host.device = .failed ∨ w.overrun = false ∨ w.time ≠ s.timebase.time → exec .stepEnd s = .next
        { s with wheel := { w with step := none } }))

/-- Derived from R28, R30 to R35 and R38: the moves of a wheel step, each of one entry, stage by stage. While the sweep has entries left, the head of the overflow
list is placed again, and neither later stage moves anything; then, level 3 first, the head of the slot at W of each level that W is a multiple of, and
the emptying moves nothing while one is left; then the head of the L0 slot at W goes to the due queue. A stage with nothing left moves nothing, and without a
step in progress nothing moves. (That a step's stage is read from what is left to move is the model's own, assumption log 16.) -/
def Obligations.WheelStepMovesEntries : Prop :=
  (∀ s : State, s.wheel.step = none →
    exec .overflowSweep s = .next s ∧ exec .cascade s = .next s ∧ exec .l0Emptying s = .next s) ∧
  ∀ (s : State) (p : WheelStep), s.wheel.step = some p →
    let spot := fun l : Fin 4 => (Fin.ofNat 64 (s.wheel.time / 64 ^ l.val) : Fin 64)
    let holds := fun l : Fin 4 => s.wheel.time % 64 ^ l.val = 0 ∧ s.wheelSlot l (spot l) ≠ []
    (0 < p.sweepLeft → exec .cascade s = .next s ∧ exec .l0Emptying s = .next s ∧
      ∀ k rest e, s.wheel.overflow = k :: rest → s.entryAt k = some e → e.phase = .armed → e.location = some .overflow →
        ∃ t : State, exec .overflowSweep s = .next t ∧ s.Moved t k e e) ∧
    (p.sweepLeft = 0 → exec .overflowSweep s = .next s ∧
      (∀ l : Fin 4, l ≠ 0 → holds l → exec .l0Emptying s = .next s ∧ ((∀ m : Fin 4, l < m → ¬ holds m) →
        ∀ k rest e, s.wheelSlot l (spot l) = k :: rest → s.entryAt k = some e → e.phase = .armed → e.location = some (.slot l (spot l)) →
        ∃ t : State, exec .cascade s = .next t ∧ s.Moved t k e e)) ∧
      ((∀ l : Fin 4, l ≠ 0 → ¬ holds l) → exec .cascade s = .next s ∧
        (s.wheelSlot 0 (spot 0) = [] → exec .l0Emptying s = .next s) ∧
        ∀ k rest e, s.wheelSlot 0 (spot 0) = k :: rest → s.entryAt k = some e → e.phase = .armed → e.location = some (.slot 0 (spot 0)) →
        ∃ t : State, exec .l0Emptying s = .next t ∧
          t.rowAt k = { s.rowAt k with entry := some { e with phase := .due, location := some .dueQueue } } ∧ s.OnlyRow t k ∧
          t.wheel = (s.wheel.remove k (.slot 0 (spot 0))).append k .dueQueue ∧
          t.domains = s.domains ∧ t.expiry = s.expiry ∧ t.table.freeList = s.table.freeList ∧ s.SameReservation t ∧
          t.poster = s.poster ∧ s.OnlyTimers t))

/-! ### Expiry -/

/-- Derived from R48, R50, R51 and R52: in READY, the take of the entry at the head of the due queue discards it when its domain is DESTROYING, counting it
in the destroy walk, and holds it at the tail of its domain's held list when that is paused. -/
def Obligations.TakeDiscardsOrHolds : Prop :=
  (∀ s : State, s.host.device ≠ .ready ∨ s.wheel.dueQueue = [] → exec .take s = .next s) ∧
  ∀ (s : State) (k : Nat) (rest : List Nat) (e : Entry), s.host.device = .ready → s.wheel.dueQueue = k :: rest → s.entryAt k = some e →
    e.phase = .due → e.location = some .dueQueue →
    ((s.domain e.domain).state = .destroying → ∃ u : State, s.Freed u k e ∧ exec .take s = .next (u.updateDomain e.domain (fun d =>
      { d with walk := d.walk.map (fun w => { w with discardCount := w.discardCount + 1 }) }))) ∧
    ((s.domain e.domain).state ≠ .destroying → 1 ≤ (s.domain e.domain).pauseDepth → ∃ t : State, exec .take s = .next t ∧
      t.rowAt k = { s.rowAt k with entry := some { e with phase := .held, location := none } } ∧ s.OnlyRow t k ∧
      t.wheel = { s.wheel with dueQueue := s.wheel.dueQueue.filter (· != k) } ∧
      t.domain e.domain = { s.domain e.domain with held := (s.domain e.domain).held ++ [k] } ∧ s.OnlyDomain t e.domain ∧
      t.expiry = s.expiry ∧ t.table.freeList = s.table.freeList ∧ s.SameReservation t ∧ t.poster = s.poster ∧ s.OnlyTimers t)

/-- Derived from R48, R50, R53 to R62 and R65: in READY, the take of the entry at the head of the due queue fires it when its domain is neither DESTROYING
nor paused. The fire is counted and recorded; a one-shot ends, FIRED; a periodic entry is placed by its next deadline, or ends at the end of its
fire limit or of device time; a guard trips. A pending expiry that the fire created is handed over. -/
def Obligations.TakeFires : Prop :=
  ∀ (s : State) (k : Nat) (rest : List Nat) (e : Entry), s.host.device = .ready → s.wheel.dueQueue = k :: rest → s.entryAt k = some e →
    e.phase = .due → e.location = some .dueQueue → (s.domain e.domain).state ≠ .destroying → (s.domain e.domain).pauseDepth = 0 →
    let period := e.period.getD 0
    let missed := if e.kind = .periodic then (s.wheel.time - e.deadline) / period else 0
    let nextDeadline := e.deadline + (missed + 1) * period
    let holdover := decide (s.timebase.state = .holdover)
    let recorded : PendingExpiry := match e.pendingExpiry with
      | none =>
        { kind := if e.kind = .guard then .guardTrip else .expiry, fireCount := 1, missedCount := min (2 ^ 32 - 1) missed
          latestDeadline := e.deadline, holdover := holdover }
      | some p =>
        { kind := p.kind, fireCount := min 65535 (p.fireCount + 1), missedCount := min (2 ^ 32 - 1) (p.missedCount + missed)
          latestDeadline := e.deadline, holdover := p.holdover || holdover }
    let fired := { e with totalFires := min (2 ^ 32 - 1) (e.totalFires + 1), pendingExpiry := some recorded }
    let ended := { fired with phase := .fired, location := none }
    let last := e.fireLimit = some 1 ∨ 2 ^ 64 - 1 < nextDeadline
    let without := { s.wheel with dueQueue := s.wheel.dueQueue.filter (· != k) }
    let left := fun (u : State) (e' : Entry) (wheel : Wheel) (trips : Nat) =>
      u.rowAt k = { s.rowAt k with entry := some e' } ∧ u.wheel = wheel ∧ u.expiry = { faultTrips := trips }
    ∃ u : State, exec .take s = .next (if e.pendingExpiry = none then u.handExpiry e.ring k else u) ∧
      (e.kind = .oneshot → left u ended without s.expiry.faultTrips) ∧
      (e.kind = .periodic → last → left u { ended with fireLimit := none } without s.expiry.faultTrips) ∧
      (e.kind = .periodic → ¬ last →
        left u ({ fired with deadline := nextDeadline, fireLimit := e.fireLimit.map (· - 1) }.placedAt s.wheel.time)
          (without.append k (placement s.wheel.time nextDeadline)) s.expiry.faultTrips) ∧
      (e.kind = .guard → left u { fired with phase := .tripped, location := none } without
        (s.expiry.faultTrips + (if e.faultOption then 1 else 0))) ∧
      s.OnlyRow u k ∧ u.domains = s.domains ∧ u.table.freeList = s.table.freeList ∧ s.SameReservation u ∧ u.poster = s.poster ∧ s.OnlyTimers u

/-! ### Notification -/

/-- Derived from R16, R62, R63, R157, R159, R161 and R171: a new pending expiry is taken for writing at once when the ring is ACTIVE with free space and an
empty deferred list, and otherwise deferred; a drain takes the head of the deferred list. What the record carries; a FIRED entry is freed, its
slot keeping the posting mark, and any other stays without its pending expiry. Outside READY a new pending expiry is deferred, and a drain changes nothing. (That the
mark keeps its write's number is the model's choice: assumption log 23.) -/
def Obligations.ExpiriesTakenForWriting : Prop :=
  (∀ (s : State) (c : Fin 8) (k : Nat),
    let r := s.cr c
    let space := s.host.device = .ready ∧ r.state = .active ∧ 1 ≤ r.size - 1 - r.unconsumed - r.reserved
    (space ∧ r.deferred = [] → s.handExpiry c k = s.takeExpiry c k) ∧
    (¬ (space ∧ r.deferred = []) → s.handExpiry c k = s.updateCr c (fun _ => { r with deferred := r.deferred ++ [k] })) ∧
    (¬ space ∨ r.deferred = [] → exec (.drain c) s = .next s) ∧
    (∀ rest, space → r.deferred = k :: rest → exec (.drain c) s = .next ((s.updateCr c (fun _ => { r with
      deferred := r.deferred.filter (· != k), restoredRun := r.restoredRun - 1 })).takeExpiry c k))) ∧
  ∀ (s : State) (c : Fin 8) (k : Nat) (e : Entry) (p : PendingExpiry), s.entryAt k = some e → e.pendingExpiry = some p →
    let g := s.generationAt k
    let kept := { e with pendingExpiry := none }
    let taken := s.takeForWriting c false
      { kind := if p.kind = .guardTrip then .guardTrip else .expiry, status := 0#8
        flags := BitVec.ofNat 16 (p.holdover.toNat + 4 * e.faultOption.toNat), source := 0#8, tag := BitVec.ofNat 16 p.fireCount
        handle := handleOf k g, count := BitVec.ofNat 32 p.missedCount, wordA := e.cookie, wordB := BitVec.ofNat 64 p.latestDeadline }
      (.expiry k g p)
    (e.phase ≠ .fired → s.takeExpiry c k = taken.setEntry k kept) ∧
    (e.phase = .fired → ∃ u : State, (taken.setEntry k kept).Freed u k kept ∧ s.takeExpiry c k = u.setRow k { u.rowAt k with
      mark := some { generation := g, entry := e, ring := c, ringSlot := (s.cr c).tail, write := s.poster.writes } })

/-- Derived from R161, R162, R163, R164 and R165: an event is posted into CR0 as the spec's record; a message whose trigger is due is sent and the counts
start over (what the triggers' own commands do beside a take's or a tick's message: assumption log 11). -/
def Obligations.EventsAndMessagesGoOut : Prop :=
  (∀ s : State,
    let r := s.cr 0
    let space := s.host.device = .ready ∧ r.state = .active ∧ 1 ≤ r.size - 1 - r.unconsumed - r.reserved
    (¬ space ∨ s.poster.events = [] → exec .eventPost s = .next s) ∧
    ∀ e rest, space → s.poster.events = e :: rest → exec .eventPost s = .next
      (({ s with poster := { s.poster with events := rest } } : State).takeForWriting 0 false
        { kind := .event, status := e.kind.code, flags := 0#16, source := e.source.code, tag := BitVec.ofNat 16 e.occurrences, handle := 0#32
          count := BitVec.ofNat 32 e.cause.code, wordA := 0#64, wordB := BitVec.ofNat 64 e.raisedAt } .event)) ∧
  ∀ (s : State) (c : Fin 8),
    let r := s.cr c
    let live := s.host.device = .ready ∧ r.state = .active ∧ r.interrupts = true
    let countDue := live ∧ 0 < r.unnotified ∧ r.moderationCount ≤ r.unnotified
    let delayDue := live ∧ 0 < r.moderationDelay ∧ ∃ n, r.delayCount = some n ∧ r.moderationDelay ≤ n
    let sent : State := { (s.updateCr c (fun _ => { r with unnotified := 0, delayCount := none })) with
      host := { s.host with dma := s.host.dma ++ [.messageWrite c r.messageAddress r.messageData] } }
    (countDue → exec (.countTrigger c) s = .next sent) ∧ (¬ countDue → exec (.countTrigger c) s = .next s) ∧
    (delayDue → exec (.delayTrigger c) s = .next sent) ∧ (¬ delayDue → exec (.delayTrigger c) s = .next s)

/-- Derived from R18, R161, R166, R168 and R191: the end of the Completion Poster's oldest write in READY. Done, it removes the posting mark that belongs to
it, and does nothing else; failed, it fails the device when it was to CR0, and otherwise the ring, raising RING_ERROR. Outside READY the report is
discarded. (What a failed expiry record does besides has a statement of its own. That a mark belongs to the write with its number, beside R16's ring and ring
slot, is the model's choice: assumption log 23; and so is the cause BUS_ERROR of a RING_ERROR raised again for a ring in ERROR by BAD_INDEX: log 34.) -/
def Obligations.WritesEnd : Prop :=
  ∀ s : State,
    let ended := s.endDma DmaRequest.ofPoster
    (s.host.dma.find? DmaRequest.ofPoster = none → exec .writeDone s = .next s ∧ exec .writeFailed s = .next s) ∧
    ∀ q, s.host.dma.find? DmaRequest.ofPoster = some q →
      (s.host.device ≠ .ready → exec .writeDone s = .next ended ∧ exec .writeFailed s = .next ended) ∧
      (s.host.device = .ready →
        (∀ c slot n a data k g p m, q = .recordWrite c slot n a data (.expiry k g p) → s.markAt k = some m → m.ring = c → m.ringSlot = slot →
          m.write = n → exec .writeDone s = .next (ended.setRow k { s.rowAt k with mark := none })) ∧
        ((∀ c slot n a data k g p m, q = .recordWrite c slot n a data (.expiry k g p) → s.markAt k = some m →
          ¬ (m.ring = c ∧ m.ringSlot = slot ∧ m.write = n)) → exec .writeDone s = .next ended) ∧
        (q.toRing 0 = true → exec .writeFailed s = .next
          { ended with host := { ended.host with device := .failed, fatalCause := .cr0WriteError } }) ∧
        (∀ c, c ≠ 0 → q.toRing c = true → (∀ slot n a data k g p, q ≠ .recordWrite c slot n a data (.expiry k g p)) →
          exec .writeFailed s = .next ((ended.updateCr c (fun r =>
            if r.state = .active then
              { r with state := .error, cause := .busError, restoredRun := 0, unnotified := 0, delayCount := none }
            else r)).raise .ringError (.completionRing c) .busError)))

/-- Derived from R18, R64, R87, R166 and R167: a failed expiry record of CR1 to CR7 restores its fires. A FIRED entry comes back from its slot's mark, with
the pending expiry as taken when the mark is the failed write's own and with the record's contents otherwise, unless its domain is DESTROYING; an
entry in use gets the record's contents back, merged into those it holds; a slot that holds neither under that generation is left. A restored
entry stands at the front of its ring's deferred list, behind those restored before it. By the model's choice: a mark belongs to the write with its number, beside
R16's ring and ring slot (assumption log 23); the RING_ERROR of a ring in ERROR by BAD_INDEX carries BUS_ERROR (log 34); and an entry whose slot is in use again
under the record's generation, for another ring, joins its own ring's list (log 35). -/
def Obligations.FailedFiresRestored : Prop :=
  ∀ (s : State) (c : Fin 8) (slot n : Nat) (a : DWord) (data : RecordBits) (k g : Nat) (p : PendingExpiry), s.host.device = .ready → c ≠ 0 →
    s.host.dma.find? DmaRequest.ofPoster = some (.recordWrite c slot n a data (.expiry k g p)) →
    let failed := (((s.endDma DmaRequest.ofPoster).updateCr c (fun r =>
      if r.state = .active then { r with state := .error, cause := .busError, restoredRun := 0, unnotified := 0, delayCount := none }
      else r)).raise .ringError (.completionRing c) .busError)
    let front := fun r : CompletionRing =>
      if k ∈ r.deferred.take r.restoredRun then r
      else { r with
        deferred := (r.deferred.filter (· != k)).take r.restoredRun ++ k :: (r.deferred.filter (· != k)).drop r.restoredRun
        restoredRun := r.restoredRun + 1 }
    (∀ m, s.markAt k = some m → m.generation = g →
      let own := m.ring = c ∧ m.ringSlot = slot ∧ m.write = n
      let d := m.entry.domain
      ((s.domain d).state = .destroying →
        (own → exec .writeFailed s = .next (failed.setRow k { s.rowAt k with mark := none })) ∧
        (¬ own → exec .writeFailed s = .next failed)) ∧
      ((s.domain d).state ≠ .destroying → ∃ t : State, exec .writeFailed s = .next t ∧
        t.rowAt k = { generation := g, entry := some { m.entry with pendingExpiry := if own then m.entry.pendingExpiry else some p }, mark := none } ∧
        s.OnlyRow t k ∧ t.table.freeList = s.table.freeList.filter (· != k) ∧ s.SameReservation t ∧
        t.domain d = { s.domain d with inUse := (s.domain d).inUse + 1 } ∧ s.OnlyDomain t d ∧
        t.cr m.entry.ring = front { failed.cr m.entry.ring with bound := (s.cr m.entry.ring).bound + 1 } ∧ failed.OnlyCr t m.entry.ring ∧
        t.poster.events = failed.poster.events ∧ t.wheel = s.wheel ∧ t.expiry = s.expiry ∧ t.timebase = s.timebase ∧ t.host = failed.host ∧
        t.fetcher = s.fetcher ∧ t.executor = s.executor ∧ t.transfer = s.transfer ∧ t.pending = s.pending)) ∧
    (∀ e, s.markAt k = none → s.entryAt k = some e → s.generationAt k = g → exec .writeFailed s = .next
      ((failed.setEntry k { e with pendingExpiry := some (match e.pendingExpiry with
        | none => p
        | some held =>
          { kind := held.kind, fireCount := min 65535 (held.fireCount + p.fireCount)
            missedCount := min (2 ^ 32 - 1) (held.missedCount + p.missedCount)
            latestDeadline := max held.latestDeadline p.latestDeadline, holdover := held.holdover || p.holdover }) }).updateCr e.ring front)) ∧
    ((∀ m, s.markAt k = some m → m.generation ≠ g) → (s.markAt k = none → s.entryAt k = none ∨ s.generationAt k ≠ g) →
      exec .writeFailed s = .next failed)

/-! ### Export and import -/

/-- Derived from R113, R176, R178, R183, R203 and section 11.5: the place of every field in an image's header, entry record and trailer, with the codes that stand
there and 0 in the reserved bytes; the sum of a part's words; which records are well formed; and the entry that an import makes of a record. The record of an exported
entry is well formed, and the entry made of it has its kind, ring, fault option, period, remaining fire limit, cookie and total fires, and its deadline
moved by as much as device time has moved, within the bounds of an offset and of a tick value. -/
def Obligations.ImageKeepsTimers : Prop :=
  (∀ (d : Fin 64) (count : Nat) (source : Byte) (divisor : Word) (start : Nat),
    let h := encodeHeader d count source divisor start
    h.extractLsb' 0 32 = 0x7E1640A5#32 ∧ h.extractLsb' 32 16 = 1#16 ∧ h.extractLsb' 48 8 = BitVec.ofNat 8 d.val ∧ h.extractLsb' 56 8 = source ∧
      h.extractLsb' 64 32 = BitVec.ofNat 32 count ∧ h.extractLsb' 96 32 = divisor ∧ h.extractLsb' 128 64 = BitVec.ofNat 64 start ∧
      h.extractLsb' 192 64 = 0#64) ∧
  (∀ (sum : Word) (count : Nat),
    (encodeTrailer sum count).extractLsb' 0 32 = sum ∧ (encodeTrailer sum count).extractLsb' 32 32 = BitVec.ofNat 32 count) ∧
  (∀ (e : Entry) (start : Nat), e.phase ≠ .fired →
    let r := encodeEntry e start
    let offset := max (-(2 ^ 63)) (min (2 ^ 63 - 1) ((e.deadline : Int) - start))
    r.extractLsb' 0 8 = (if e.kind = .oneshot then 0#8 else if e.kind = .periodic then 1#8 else 2#8) ∧
      r.extractLsb' 8 8 = (if e.phase = .held then 3#8 else if e.phase = .tripped then 5#8 else 1#8) ∧
      r.extractLsb' 16 8 = (if e.faultOption then 1#8 else 0#8) ∧ r.extractLsb' 24 8 = BitVec.ofNat 8 e.ring.val ∧
      r.extractLsb' 32 16 = BitVec.ofNat 16 (e.fireLimit.getD 0) ∧ r.extractLsb' 48 16 = 0#16 ∧ (r.extractLsb' 64 64).toInt = offset ∧
      r.extractLsb' 128 32 = BitVec.ofNat 32 (e.period.getD 0) ∧ r.extractLsb' 160 32 = BitVec.ofNat 32 e.totalFires ∧
      r.extractLsb' 192 64 = e.cookie) ∧
  (∀ r : RecordBits,
    let kind := (r.extractLsb' 0 8).toNat
    let phase := (r.extractLsb' 8 8).toNat
    let fault := (r.extractLsb' 16 8).toNat
    let ring := (r.extractLsb' 24 8).toNat
    let limit := (r.extractLsb' 32 16).toNat
    let period := (r.extractLsb' 128 32).toNat
    wordSum r = r.extractLsb' 0 32 + r.extractLsb' 32 32 + r.extractLsb' 64 32 + r.extractLsb' 96 32 + r.extractLsb' 128 32 +
      r.extractLsb' 160 32 + r.extractLsb' 192 32 + r.extractLsb' 224 32 ∧
    (wellFormedRecord r = true ↔
      (phase = 1 ∨ phase = 3 ∨ phase = 5 ∧ kind = 2) ∧ fault ≤ 1 ∧ 1 ≤ ring ∧ ring ≤ 7 ∧
      (kind = 0 ∧ period = 0 ∧ limit = 0 ∧ fault = 0 ∨ kind = 1 ∧ period ≠ 0 ∧ fault = 0 ∨ kind = 2 ∧ period ≠ 0 ∧ limit = 0)) ∧
    (wellFormedRecord r = true → imagePhaseCode r = phase ∧ ∀ (d : Fin 64) (now : Nat), importedEntry r d now =
      { phase := .held, kind := if kind = 0 then .oneshot else if kind = 1 then .periodic else .guard, domain := d, ring := Fin.ofNat 8 ring
        deadline := min (2 ^ 64 - 1) ((now : Int) + (r.extractLsb' 64 64).toInt).toNat
        period := if period = 0 then none else some period, fireLimit := if limit = 0 then none else some limit
        cookie := r.extractLsb' 192 64, faultOption := decide (fault = 1), totalFires := (r.extractLsb' 160 32).toNat
        pendingExpiry := none, importMark := true, location := none })) ∧
  ∀ (e : Entry) (start now : Nat) (d : Fin 64), e.legal = true → e.phase ≠ .fired →
    let offset := max (-(2 ^ 63)) (min (2 ^ 63 - 1) ((e.deadline : Int) - start))
    wellFormedRecord (encodeEntry e start) = true ∧
    importedEntry (encodeEntry e start) d now =
      { phase := .held, kind := e.kind, domain := d, ring := e.ring
        deadline := min (2 ^ 64 - 1) ((now : Int) + offset).toNat
        period := e.period, fireLimit := e.fireLimit, cookie := e.cookie, faultOption := e.faultOption, totalFires := e.totalFires
        pendingExpiry := none, importMark := true, location := none }

/-- Derived from R14, R15, R65, R175, R177, R178, R179, R183 and R188: an export's own events in READY. A visit with no transfer in flight writes the record of an entry
of the exported set and passes by any other slot, the last one with the trailer's write; the end of a write lets the job go on; the trailer's
ends the job, or makes it release, which frees the exported set in one claim, each entry with the place, the bound count and the fault trip that R14, R15
and R65 give it (`State.Freed`; their order is open, assumption log 4), and ends it. The end of an ended job's write lets a job accepted since then begin. A visit, a
release or a write's end that the job, its stage, its position or the requests in flight do not call for changes nothing (log 5). -/
def Obligations.ExportWritesAndReleases : Prop :=
  (∀ s : State, s.host.device ≠ .ready ∨ s.transferring = true ∨ (∀ j, s.transfer.job = some j → j.stage ≠ .writing ∨ 16384 ≤ j.position) →
    exec .exportVisit s = .next s) ∧
  (∀ s : State, s.host.device ≠ .ready ∨ (∀ j, s.transfer.job = some j → j.stage ≠ .releasing) → exec .exportRelease s = .next s) ∧
  (∀ s : State, s.host.dma.find? DmaRequest.isTransferWrite = none → exec .transferWriteDone s = .next s) ∧
  (∀ (s : State) (j : Job), s.host.device = .ready → s.transfer.job = some j → j.stage = .writing → s.transferring = false →
    j.position < 16384 →
    let next := { j with position := j.position + 1 }
    let address := j.bufferAddress + BitVec.ofNat 64 (32 + 32 * j.recordsDone)
    (∀ e, s.entryAt j.position = some e → e.domain = j.domain → e.phase ≠ .fired → exec .exportVisit s = .next
      (({ s with transfer := { job := some { next with runningSum := j.runningSum + wordSum (encodeEntry e j.exportStart) } } } : State).pushDma
        (.transferWrite true .entryRecord address 32 (encodeEntry e j.exportStart)))) ∧
    ((∀ e, s.entryAt j.position = some e → ¬ (e.domain = j.domain ∧ e.phase ≠ .fired)) →
      (j.position + 1 < 16384 → exec .exportVisit s = .next { s with transfer := { job := some next } }) ∧
      (j.position + 1 = 16384 → exec .exportVisit s = .next (({ s with transfer := { job := some next } } : State).pushDma
        (.transferWrite true .trailer address 8 (encodeTrailer j.runningSum j.recordCount)))))) ∧
  (∀ (s : State) (live : Bool) (item : TransferItem) (a : DWord) (n : Nat) (data : RecordBits),
    s.host.dma.find? DmaRequest.isTransferWrite = some (.transferWrite live item a n data) →
    let ended := s.endDma DmaRequest.isTransferWrite
    (s.host.device ≠ .ready → exec .transferWriteDone s = .next ended) ∧
    (s.host.device = .ready → s.transfer.job = none → exec .transferWriteDone s = .next ended) ∧
    ∀ j, s.host.device = .ready → s.transfer.job = some j →
      let one := { j with recordsDone := j.recordsDone + 1 }
      let begun := if j.stage = .writing ∨ j.stage = .releasing then { j with runningSum := j.runningSum + wordSum j.header } else j
      (live = false → exec .transferWriteDone s = .next
        (({ ended with transfer := { job := some begun } } : State).pushDma j.firstTransfer)) ∧
      (live = true → item = .header → exec .transferWriteDone s = .next ended) ∧
      (live = true → item = .entryRecord → j.position ≠ 16384 →
        exec .transferWriteDone s = .next { ended with transfer := { job := some one } }) ∧
      (live = true → item = .entryRecord → j.position = 16384 →
        exec .transferWriteDone s = .next (({ ended with transfer := { job := some one } } : State).pushDma
          (.transferWrite true .trailer (j.bufferAddress + BitVec.ofNat 64 (32 + 32 * (j.recordsDone + 1))) 8
            (encodeTrailer j.runningSum j.recordCount)))) ∧
      (live = true → item = .trailer → j.release = true →
        exec .transferWriteDone s = .next { ended with transfer := { job := some { j with stage := .releasing } } }) ∧
      (live = true → item = .trailer → j.release = false →
        exec .transferWriteDone s = .next (ended.endJob j .success j.recordCount (j.runningSum.setWidth 64))) ∧
      (live = true → item = .handle → exec .transferWriteDone s = .next (ended.pushDma j.nextRead))) ∧
  ∀ (s : State) (j : Job), s.TableLegal → s.host.device = .ready → s.transfer.job = some j → j.stage = .releasing →
    let exported := fun k => ∃ e, s.entryAt k = some e ∧ e.domain = j.domain ∧ e.phase ≠ .fired
    ∃ u : State, ∃ freed : List Nat,
      exec .exportRelease s = .next (u.endJob j .success j.recordCount (j.runningSum.setWidth 64)) ∧
      freed.Nodup ∧ (∀ k, k ∈ freed ↔ exported k) ∧ u.table.freeList = s.table.freeList ++ freed ∧ s.SameReservation u ∧
      ({ s with choices := u.choices } : State).FreedInTurn freed u ∧
      (∀ k, exported k → u.rowAt k = { generation := nextGeneration (s.generationAt k), entry := none, mark := none }) ∧
      (∀ k, ¬ exported k → u.rowAt k = s.rowAt k) ∧
      (u.domain j.domain).inUse = (s.domain j.domain).inUse - freed.length ∧ s.OnlyDomain u j.domain ∧
      u.wheel.time = s.wheel.time ∧ u.poster.events = s.poster.events ∧ u.timebase = s.timebase ∧ u.host = s.host ∧ u.fetcher = s.fetcher ∧
      u.executor = s.executor ∧ u.transfer = s.transfer ∧ u.pending = s.pending

/-- Derived from R13, R175, R176, R180, R181, R182, R183, R184, R185 and R188: what the end of an image read does in READY. Pass 1 takes a good header and sums the
records; at its trailer the checks come in order, and an import that passes them reserves its entries and starts pass 2; a well-formed record of
pass 2 makes a creation claim, which waits when the free-list head is marked, and by the model's reading behind an ARM that waits (assumption log 15); a
trailer, whatever its own words (log 37), clears the import marks and ends the job when the sum is that of pass 1. The end of an ended job's read lets a job accepted since then begin. With no read in flight
nothing changes, and a job that has none to end goes on as it stands (log 5). -/
def Obligations.ImportReadsImage : Prop :=
  (∀ (s : State) (data : RecordBits), s.host.dma.find? DmaRequest.isTransferRead = none → exec (.transferReadDone data) s = .next s) ∧
  ∀ (s : State) (live : Bool) (item : TransferItem) (a : DWord) (n : Nat) (data : RecordBits),
    s.host.dma.find? DmaRequest.isTransferRead = some (.transferRead live item a n) →
    let ended := s.endDma DmaRequest.isTransferRead
    let result := exec (.transferReadDone data) s
    (s.host.device ≠ .ready → result = .next ended) ∧
    (s.host.device = .ready → s.transfer.job = none → result = .next ended) ∧
    ∀ j, s.host.device = .ready → s.transfer.job = some j →
      let count := (data.extractLsb' 64 32).toNat
      let good := data.extractLsb' 0 32 = 0x7E1640A5#32 ∧ data.extractLsb' 32 16 = 1#16 ∧ count ≤ 16384 ∧ 40 + 32 * count ≤ j.bufferLength
      let goOn := fun j' : Job => ({ ended with transfer := { job := some j' } } : State)
      let summed := { j with runningSum := j.runningSum + wordSum data }
      let read := fun j' : Job => (goOn j').pushDma (if j'.position < j'.recordCount then
        .transferRead true .entryRecord (j.bufferAddress + BitVec.ofNat 64 (32 + 32 * j'.position)) 32
        else .transferRead true .trailer (j.bufferAddress + BitVec.ofNat 64 (32 + 32 * j'.recordCount)) 8)
      let dom := s.domain j.domain
      let checks : List (Bool × Status) :=
        [((data.extractLsb' 32 32).toNat != j.recordCount || j.illFormed, .imageFormat),
         (data.extractLsb' 0 32 != j.runningSum, .imageChecksum),
         (j.imageSource != BitVec.ofNat 8 s.timebase.source.code || j.imageDivisor != BitVec.ofNat 32 (s.timebase.divisor.getD 0) ||
           decide (∃ c : Fin 8, 0 < j.ringRecords[c] ∧ (s.cr c).state = .closed), .imageMismatch),
         (decide (j.handleLength < 4 * j.recordCount), .bufferTooSmall),
         (decide (dom.quota.getD 0 < dom.inUse + s.marksNaming j.domain + j.recordCount), .quotaExceeded),
         (decide (s.unmarkedFree < s.table.reservation + j.recordCount), .noEntries)]
      let begun := if j.stage = .writing ∨ j.stage = .releasing then { j with runningSum := j.runningSum + wordSum j.header } else j
      (live = false → result = .next ((goOn begun).pushDma j.firstTransfer)) ∧
      (live = true → j.stage = .writing ∨ j.stage = .releasing ∨ item = .handle → result = .next ended) ∧
      (live = true → j.stage = .verifying →
        (item = .header → good → result = .next (read { summed with
          recordCount := count, imageSource := data.extractLsb' 56 8, imageDivisor := data.extractLsb' 96 32 })) ∧
        (item = .header → ¬ good → result = .next (ended.endJob j .imageFormat 0 0#64)) ∧
        (item = .entryRecord → wellFormedRecord data = true → result = .next (read { summed with
          position := j.position + 1
          ringRecords := updateAt j.ringRecords (Fin.ofNat 8 (data.extractLsb' 24 8).toNat) (· + 1) })) ∧
        (item = .entryRecord → wellFormedRecord data = false → result = .next (read { summed with
          position := j.position + 1, illFormed := true })) ∧
        (item = .trailer →
          (∀ status, firstFailure checks = some status → result = .next (ended.endJob j status 0 0#64)) ∧
          (firstFailure checks = none → result = .next (({ (goOn { j with
              stage := .creating, position := 0, recordsDone := 0, pass1Sum := j.runningSum, runningSum := 0#32
              ringHolds := j.ringRecords }).updateDomain j.domain (fun d => { d with inUse := d.inUse + j.recordCount }) with
            table := { s.table with reservation := s.table.reservation + j.recordCount } } : State).pushDma
              (.transferRead true .header j.bufferAddress 32))))) ∧
      (live = true → j.stage = .creating →
        (item = .header → result = .next (read summed)) ∧
        (item = .entryRecord → wellFormedRecord data = false →
          result = .next ((ended.rollback j.domain).endJob j .imageChanged 0 0#64)) ∧
        (item = .entryRecord → wellFormedRecord data = true →
          let claimed := goOn { summed with position := j.position + 1, creation := some data }
          (s.creationWaits = false ∨ .creation ∈ s.table.waiting → result = .next claimed) ∧
          (s.creationWaits = true → .creation ∉ s.table.waiting → result = .next
            { claimed with table := { s.table with waiting := s.table.waiting ++ [.creation] } })) ∧
        (item = .trailer → j.runningSum ≠ j.pass1Sum →
          result = .next ((ended.rollback j.domain).endJob j .imageChanged 0 0#64)) ∧
        (item = .trailer → j.runningSum = j.pass1Sum → s.Canonical → ∃ u : State,
          result = .next (u.endJob j .success j.recordCount (j.runningSum.setWidth 64)) ∧
          (∀ k, u.rowAt k = { s.rowAt k with entry := (s.entryAt k).map (fun e => { e with importMark := false }) }) ∧
          u.table.freeList = s.table.freeList ∧ s.SameReservation u ∧ u.wheel = s.wheel ∧ u.expiry = s.expiry ∧ u.domains = s.domains ∧
          u.timebase = s.timebase ∧ u.poster = s.poster ∧ u.host = ended.host ∧ u.fetcher = s.fetcher ∧ u.executor = s.executor ∧
          u.transfer = s.transfer ∧ u.choices = s.choices ∧ u.pending = s.pending))

/-- Derived from R13, R15, R65, R182, R183 and R188: a creation claim in READY that need not wait allocates the head of the free list to the record's entry, using
one reserved slot and one hold of its ring, puts the entry where its phase and deadline send it, and writes its handle. One that finds the head
marked waits (and so would one that found the list empty, which the reservation prevents); outside READY none is taken (R188), and without one under way nothing
changes (log 5). By the model's reading, one also waits behind an ARM that waits (assumption log 15), and the entry is created onto the ring that the record of pass 2
names, whose hold it uses up, whatever pass 1 found (log 21). -/
def Obligations.CreationClaimsCreate : Prop :=
  (∀ s : State, s.host.device ≠ .ready ∨ (∀ j, s.transfer.job = some j → j.creation = none) → exec .importCreation s = .next s) ∧
  ∀ (s : State) (j : Job) (r : RecordBits), s.host.device = .ready → s.transfer.job = some j → j.creation = some r →
    (s.table.freeList = [] ∨ s.headMarked = true ∨ s.table.waiting.head? = some .arm →
      (.creation ∈ s.table.waiting → exec .importCreation s = .next s) ∧
      (.creation ∉ s.table.waiting → exec .importCreation s = .next
        { s with table := { s.table with waiting := s.table.waiting ++ [.creation] } })) ∧
    ∀ k rest, s.table.freeList = k :: rest → s.headMarked = false → s.table.waiting.head? ≠ some .arm →
      let e := importedEntry r j.domain s.timebase.time
      let tripped := imagePhaseCode r = Phase.tripped.code
      let held := ¬ tripped ∧ e.deadline ≤ s.wheel.time
      let put := if tripped then { e with phase := .tripped } else if held then { e with phase := .held } else e.placedAt s.wheel.time
      let d := s.domain j.domain
      ∃ t : State, exec .importCreation s = .next (t.pushDma
          (.transferWrite true .handle (j.handleAddress + BitVec.ofNat 64 (4 * j.recordsDone)) 4 ((handleOf k (s.generationAt k)).setWidth 256))) ∧
        t.rowAt k = { s.rowAt k with entry := some put } ∧ s.OnlyRow t k ∧ t.table.freeList = rest ∧ t.table.reservation = s.table.reservation - 1 ∧
        t.table.waiting = s.table.waiting.filter (· != .creation) ∧
        t.wheel = (if tripped ∨ held then s.wheel else s.wheel.append k (placement s.wheel.time e.deadline)) ∧
        t.domain j.domain = { d with held := if held then d.held ++ [k] else d.held } ∧ s.OnlyDomain t j.domain ∧
        t.cr e.ring = { s.cr e.ring with bound := (s.cr e.ring).bound + 1 } ∧ s.OnlyCr t e.ring ∧
        t.expiry = { faultTrips := s.expiry.faultTrips + (if tripped ∧ e.faultOption = true then 1 else 0) } ∧
        t.transfer.job = some { j with
          recordsDone := j.recordsDone + 1, creation := none, ringHolds := updateAt j.ringHolds e.ring (· - 1) } ∧
        t.timebase = s.timebase ∧ t.host = s.host ∧ t.fetcher = s.fetcher ∧ t.executor = s.executor ∧
        t.poster.events = s.poster.events ∧ t.choices = s.choices ∧ t.pending = s.pending
end

