-- ==== Sys2Proof/Laws/Table.lean ====
section
/-! SUPPORT. Laws of the Timer Table's rows: reading a slot after storing one, the canonical form and what keeps it, and the list of entries in
use. -/

namespace Sys2Proof.Machine

/-! ### Reading a slot after storing one -/

theorem lookupRow_filter_ne {k j : Nat} (h : j ≠ k) (rows : List (Nat × TableRow)) :
    lookupRow (rows.filter (fun p => p.1 != k)) j = lookupRow rows j := by
  induction rows with
  | nil => rfl
  | cons p rest ih =>
    by_cases hp : p.1 = k
    · simp only [List.filter_cons, hp, bne_self_eq_false, Bool.false_eq_true, if_false, ih, lookupRow, if_neg (Ne.symm h)]
    · simp only [List.filter_cons, bne_iff_ne, ne_eq, hp, not_false_eq_true, if_true, lookupRow, ih]

theorem lookupRow_filter_self (k : Nat) (rows : List (Nat × TableRow)) :
    lookupRow (rows.filter (fun p => p.1 != k)) k = TableRow.fresh := by
  induction rows with
  | nil => rfl
  | cons p rest ih =>
    by_cases hp : p.1 = k
    · simp [hp, ih]
    · simp [hp, lookupRow, ih]

theorem lookupRow_insertRow_self (k : Nat) (r : TableRow) (rows : List (Nat × TableRow)) (h : ∀ p ∈ rows, p.1 ≠ k) :
    lookupRow (insertRow rows k r) k = r := by
  induction rows with
  | nil => simp [insertRow, lookupRow]
  | cons p rest ih =>
    obtain ⟨j, q⟩ := p
    have hj : j ≠ k := h (j, q) (by simp)
    by_cases hlt : k < j
    · simp [insertRow, hlt, lookupRow]
    · simp [insertRow, hlt, lookupRow, hj, ih (fun p hp => h p (by simp [hp]))]

theorem lookupRow_insertRow_ne {k j : Nat} (h : j ≠ k) (r : TableRow) (rows : List (Nat × TableRow)) :
    lookupRow (insertRow rows k r) j = lookupRow rows j := by
  induction rows with
  | nil => simp [insertRow, lookupRow, Ne.symm h]
  | cons p rest ih =>
    obtain ⟨i, q⟩ := p
    by_cases hlt : k < i
    · simp [insertRow, hlt, lookupRow, Ne.symm h]
    · simp [insertRow, hlt, lookupRow, ih]

/-- Storing a row: slot `k` reads as it, every other slot as before. -/
theorem lookupRow_storeRow (rows : List (Nat × TableRow)) (k j : Nat) (r : TableRow) :
    lookupRow (storeRow rows k r) j = if j = k then r else lookupRow rows j := by
  have hk : ∀ p ∈ rows.filter (fun p => p.1 != k), p.1 ≠ k := by simp
  unfold storeRow
  by_cases hf : r = TableRow.fresh
  · rw [if_pos hf]
    split
    · subst j; rw [lookupRow_filter_self, hf]
    · exact lookupRow_filter_ne ‹_› rows
  · rw [if_neg hf]
    split
    · subst j; exact lookupRow_insertRow_self k r _ hk
    · rw [lookupRow_insertRow_ne ‹_›, lookupRow_filter_ne ‹_›]

@[simp] theorem State.rowAt_setRow (s : State) (k j : Nat) (r : TableRow) :
    (s.setRow k r).rowAt j = if j = k then r else s.rowAt j := lookupRow_storeRow _ _ _ _

@[simp] theorem State.rowAt_setEntry (s : State) (k j : Nat) (e : Entry) :
    (s.setEntry k e).rowAt j = if j = k then { s.rowAt k with entry := some e } else s.rowAt j := by
  simp [State.setEntry]

/-- A row changes only through the table's rows. -/
theorem State.rowAt_congr {s t : State} (h : t.table.rows = s.table.rows) (k : Nat) : t.rowAt k = s.rowAt k := by
  simp [State.rowAt, h]

/-! ### The canonical form -/

/-- The canonical form, said once: slot numbers strictly rising, no fresh row listed. -/
theorem TimerTable.wfRows_iff (rows : List (Nat × TableRow)) :
    TimerTable.wfRows rows = true ↔ rows.Pairwise (fun p q => p.1 < q.1) ∧ ∀ p ∈ rows, p.2 ≠ TableRow.fresh := by
  induction rows with
  | nil => simp [TimerTable.wfRows]
  | cons p rest ih =>
    obtain ⟨j, r⟩ := p
    cases rest with
    | nil => simp [TimerTable.wfRows]
    | cons q rest =>
      obtain ⟨k, r'⟩ := q
      rw [TimerTable.wfRows, Bool.and_eq_true, Bool.and_eq_true, decide_eq_true_iff, decide_eq_true_iff, ih]
      constructor
      · rintro ⟨⟨hr, hjk⟩, hp, hf⟩
        refine ⟨List.pairwise_cons.2 ⟨fun q hq => ?_, hp⟩, ?_⟩
        · rcases List.mem_cons.1 hq with rfl | hq
          · exact hjk
          · exact lt_trans hjk ((List.pairwise_cons.1 hp).1 q hq)
        · intro p hp'
          rcases List.mem_cons.1 hp' with rfl | hp'
          · exact hr
          · exact hf p hp'
      · rintro ⟨hp, hf⟩
        exact ⟨⟨hf (j, r) (by simp), (List.pairwise_cons.1 hp).1 (k, r') (by simp)⟩, (List.pairwise_cons.1 hp).2,
          fun p hp' => hf p (by simp [hp'])⟩

theorem mem_insertRow {rows : List (Nat × TableRow)} {k : Nat} {r : TableRow} {p : Nat × TableRow} :
    p ∈ insertRow rows k r ↔ p = (k, r) ∨ p ∈ rows := by
  induction rows with
  | nil => simp [insertRow]
  | cons q rest ih =>
    obtain ⟨j, q⟩ := q
    by_cases hlt : k < j
    · simp [insertRow, hlt]
    · simp only [insertRow, hlt, if_false, List.mem_cons, ih]
      tauto

theorem pairwise_insertRow {rows : List (Nat × TableRow)} {k : Nat} {r : TableRow}
    (h : rows.Pairwise (fun p q => p.1 < q.1)) (hk : ∀ p ∈ rows, p.1 ≠ k) :
    (insertRow rows k r).Pairwise (fun p q => p.1 < q.1) := by
  induction rows with
  | nil => simp [insertRow]
  | cons q rest ih =>
    obtain ⟨j, q⟩ := q
    obtain ⟨h1, h2⟩ := List.pairwise_cons.1 h
    have hj : j ≠ k := hk (j, q) (by simp)
    by_cases hlt : k < j
    · rw [insertRow, if_pos hlt]
      refine List.pairwise_cons.2 ⟨fun p hp => ?_, h⟩
      rcases List.mem_cons.1 hp with rfl | hp
      · exact hlt
      · exact lt_trans hlt (h1 p hp)
    · rw [insertRow, if_neg hlt]
      refine List.pairwise_cons.2 ⟨fun p hp => ?_, ih h2 (fun p hp => hk p (by simp [hp]))⟩
      rcases mem_insertRow.1 hp with rfl | hp
      · exact lt_of_le_of_ne (not_lt.1 hlt) hj
      · exact h1 p hp

/-- Storing a row keeps the canonical form. -/
theorem wfRows_storeRow {rows : List (Nat × TableRow)} (h : TimerTable.wfRows rows = true) (k : Nat) (r : TableRow) :
    TimerTable.wfRows (storeRow rows k r) = true := by
  rw [TimerTable.wfRows_iff] at h ⊢
  obtain ⟨hp, hf⟩ := h
  have hp' := hp.filter (fun p => p.1 != k)
  have hf' : ∀ p ∈ rows.filter (fun p => p.1 != k), p.2 ≠ TableRow.fresh := fun p hm => hf p (List.mem_of_mem_filter hm)
  unfold storeRow
  by_cases hr : r = TableRow.fresh
  · rw [if_pos hr]; exact ⟨hp', hf'⟩
  · rw [if_neg hr]
    refine ⟨pairwise_insertRow hp' (by simp), fun p hm => ?_⟩
    rcases mem_insertRow.1 hm with rfl | hm
    · exact hr
    · exact hf' p hm

/-- Changing every row keeps the canonical form. -/
theorem wfRows_mapRows (f : TableRow → TableRow) {rows : List (Nat × TableRow)} (h : TimerTable.wfRows rows = true) :
    TimerTable.wfRows (mapRows f rows) = true := by
  rw [TimerTable.wfRows_iff] at h ⊢
  refine ⟨List.Pairwise.filter _ (List.pairwise_map.2 h.1), fun p hm => ?_⟩
  simpa using (List.mem_filter.1 hm).2

theorem wf_setRow {s : State} (h : s.table.wf = true) (k : Nat) (r : TableRow) : (s.setRow k r).table.wf = true :=
  wfRows_storeRow h k r

theorem wf_setEntry {s : State} (h : s.table.wf = true) (k : Nat) (e : Entry) : (s.setEntry k e).table.wf = true :=
  wfRows_storeRow h k _

/-- In canonical form, a listed row is what its slot reads as. -/
theorem lookupRow_of_mem {rows : List (Nat × TableRow)} (h : TimerTable.wfRows rows = true) {k : Nat} {r : TableRow}
    (hm : (k, r) ∈ rows) : lookupRow rows k = r := by
  rw [TimerTable.wfRows_iff] at h
  obtain ⟨hp, -⟩ := h
  induction rows with
  | nil => simp at hm
  | cons q rest ih =>
    obtain ⟨j, q⟩ := q
    obtain ⟨h1, h2⟩ := List.pairwise_cons.1 hp
    rcases List.mem_cons.1 hm with heq | hm
    · cases heq; simp [lookupRow]
    · have hj : j ≠ k := Nat.ne_of_lt (h1 (k, r) hm)
      simp [lookupRow, hj, ih hm h2]

/-- A slot that does not read as fresh is listed. -/
theorem mem_of_lookupRow {rows : List (Nat × TableRow)} {k : Nat} (h : lookupRow rows k ≠ TableRow.fresh) :
    (k, lookupRow rows k) ∈ rows := by
  induction rows with
  | nil => simp [lookupRow] at h
  | cons q rest ih =>
    obtain ⟨j, q⟩ := q
    by_cases hj : j = k
    · simp [lookupRow, hj]
    · simp only [lookupRow, hj, if_false] at h ⊢
      exact List.mem_cons_of_mem _ (ih h)

/-- In canonical form, reading a slot after every row has been changed by a map that leaves a fresh row fresh. -/
theorem lookupRow_mapRows {f : TableRow → TableRow} (hf : f TableRow.fresh = TableRow.fresh) {rows : List (Nat × TableRow)}
    (h : TimerTable.wfRows rows = true) (k : Nat) : lookupRow (mapRows f rows) k = f (lookupRow rows k) := by
  by_cases hk : lookupRow rows k = TableRow.fresh
  · rw [hk, hf]
    by_contra hne
    have hm := mem_of_lookupRow hne
    obtain ⟨⟨j, r⟩, hmem, heq⟩ := List.mem_map.1 (List.mem_of_mem_filter hm)
    simp only [Prod.mk.injEq] at heq
    obtain ⟨rfl, heq⟩ := heq
    rw [lookupRow_of_mem h hmem] at hk
    rw [hk, hf] at heq
    exact hne heq.symm
  · have hm := mem_of_lookupRow hk
    by_cases hfr : f (lookupRow rows k) = TableRow.fresh
    · rw [hfr]
      by_contra hne
      have hm' := mem_of_lookupRow hne
      obtain ⟨⟨j, r⟩, hmem, heq⟩ := List.mem_map.1 (List.mem_of_mem_filter hm')
      simp only [Prod.mk.injEq] at heq
      obtain ⟨rfl, heq⟩ := heq
      rw [← lookupRow_of_mem h hmem] at heq
      exact hne (heq.symm.trans hfr)
    · refine lookupRow_of_mem (wfRows_mapRows f h) (List.mem_filter.2 ⟨List.mem_map.2 ⟨_, hm, rfl⟩, ?_⟩)
      simpa using hfr

/-- In canonical form, the entries in use are exactly what the slots read as. -/
theorem State.mem_entries {s : State} (h : s.table.wf = true) {k : Nat} {e : Entry} :
    (k, e) ∈ s.entries ↔ s.entryAt k = some e := by
  constructor
  · intro hm
    obtain ⟨⟨j, r⟩, hmem, heq⟩ := List.mem_filterMap.1 hm
    obtain ⟨e', he, heq⟩ := Option.map_eq_some_iff.1 heq
    cases heq
    simpa [State.entryAt, State.rowAt, lookupRow_of_mem h hmem] using he
  · intro he
    have hne : lookupRow s.table.rows k ≠ TableRow.fresh := by
      intro hf
      simp [State.entryAt, State.rowAt, hf, TableRow.fresh] at he
    refine List.mem_filterMap.2 ⟨_, mem_of_lookupRow hne, ?_⟩
    simpa [State.entryAt, State.rowAt] using he

/-- In canonical form, the marks are exactly what the slots read as. -/
theorem State.mem_marks {s : State} (h : s.table.wf = true) {k : Nat} {m : PostingMark} :
    (k, m) ∈ s.marks ↔ s.markAt k = some m := by
  constructor
  · intro hm
    obtain ⟨⟨j, r⟩, hmem, heq⟩ := List.mem_filterMap.1 hm
    obtain ⟨m', he, heq⟩ := Option.map_eq_some_iff.1 heq
    cases heq
    simpa [State.markAt, State.rowAt, lookupRow_of_mem h hmem] using he
  · intro he
    have hne : lookupRow s.table.rows k ≠ TableRow.fresh := by
      intro hf
      simp [State.markAt, State.rowAt, hf, TableRow.fresh] at he
    refine List.mem_filterMap.2 ⟨_, mem_of_lookupRow hne, ?_⟩
    simpa [State.markAt, State.rowAt] using he

end Sys2Proof.Machine
end

