-- ==== Sys2Proof/Laws/State.lean ====
section
/-! SUPPORT. What the named updates of the state leave and what they write: for each update one `simp` lemma with every field it leaves, and one
for each field or record it changes. No later proof unfolds one of these updates. -/

namespace Sys2Proof.Machine

/-! ### Elements of vectors -/

theorem updateAt_get {α : Type} {n : Nat} (v : Vector α n) (i j : Fin n) (f : α → α) :
    (updateAt v i f)[j] = if j = i then f v[i] else v[j] := by
  simp only [updateAt, Fin.getElem_fin, Vector.getElem_set, Fin.ext_iff, eq_comm]

/-- Two vectors with equal elements are equal. -/
theorem vector_ext {α : Type} {n : Nat} {v w : Vector α n} (h : ∀ i : Fin n, v[i] = w[i]) : v = w :=
  Vector.ext fun i hi => h ⟨i, hi⟩

@[simp] theorem updateAt_id {α : Type} {n : Nat} (v : Vector α n) (i : Fin n) : updateAt v i (fun x => x) = v :=
  vector_ext fun j => by rw [updateAt_get]; split <;> simp_all

/-! ### What each update leaves -/

@[simp] theorem State.setRow_frame (s : State) (k : Nat) (r : TableRow) :
    (s.setRow k r).host = s.host ∧ (s.setRow k r).fetcher = s.fetcher ∧ (s.setRow k r).executor = s.executor ∧
    (s.setRow k r).wheel = s.wheel ∧ (s.setRow k r).expiry = s.expiry ∧ (s.setRow k r).domains = s.domains ∧
    (s.setRow k r).timebase = s.timebase ∧ (s.setRow k r).poster = s.poster ∧ (s.setRow k r).transfer = s.transfer ∧
    (s.setRow k r).choices = s.choices ∧ (s.setRow k r).pending = s.pending ∧ (s.setRow k r).table.freeList = s.table.freeList ∧
    (s.setRow k r).table.reservation = s.table.reservation ∧ (s.setRow k r).table.waiting = s.table.waiting :=
  ⟨rfl, rfl, rfl, rfl, rfl, rfl, rfl, rfl, rfl, rfl, rfl, rfl, rfl, rfl⟩

@[simp] theorem State.setEntry_frame (s : State) (k : Nat) (e : Entry) :
    (s.setEntry k e).host = s.host ∧ (s.setEntry k e).fetcher = s.fetcher ∧ (s.setEntry k e).executor = s.executor ∧
    (s.setEntry k e).wheel = s.wheel ∧ (s.setEntry k e).expiry = s.expiry ∧ (s.setEntry k e).domains = s.domains ∧
    (s.setEntry k e).timebase = s.timebase ∧ (s.setEntry k e).poster = s.poster ∧ (s.setEntry k e).transfer = s.transfer ∧
    (s.setEntry k e).choices = s.choices ∧ (s.setEntry k e).pending = s.pending ∧ (s.setEntry k e).table.freeList = s.table.freeList ∧
    (s.setEntry k e).table.reservation = s.table.reservation ∧ (s.setEntry k e).table.waiting = s.table.waiting :=
  ⟨rfl, rfl, rfl, rfl, rfl, rfl, rfl, rfl, rfl, rfl, rfl, rfl, rfl, rfl⟩

@[simp] theorem State.updateDomain_frame (s : State) (d : Fin 64) (f : Domain → Domain) :
    (s.updateDomain d f).host = s.host ∧ (s.updateDomain d f).fetcher = s.fetcher ∧ (s.updateDomain d f).executor = s.executor ∧
    (s.updateDomain d f).table = s.table ∧ (s.updateDomain d f).wheel = s.wheel ∧ (s.updateDomain d f).expiry = s.expiry ∧
    (s.updateDomain d f).timebase = s.timebase ∧ (s.updateDomain d f).poster = s.poster ∧ (s.updateDomain d f).transfer = s.transfer ∧
    (s.updateDomain d f).choices = s.choices ∧ (s.updateDomain d f).pending = s.pending :=
  ⟨rfl, rfl, rfl, rfl, rfl, rfl, rfl, rfl, rfl, rfl, rfl⟩

@[simp] theorem State.updateSr_frame (s : State) (i : Fin 8) (f : SubmissionRing → SubmissionRing) :
    (s.updateSr i f).host = s.host ∧ (s.updateSr i f).executor = s.executor ∧ (s.updateSr i f).table = s.table ∧
    (s.updateSr i f).wheel = s.wheel ∧ (s.updateSr i f).expiry = s.expiry ∧ (s.updateSr i f).domains = s.domains ∧
    (s.updateSr i f).timebase = s.timebase ∧ (s.updateSr i f).poster = s.poster ∧ (s.updateSr i f).transfer = s.transfer ∧
    (s.updateSr i f).choices = s.choices ∧ (s.updateSr i f).pending = s.pending ∧ (s.updateSr i f).fetcher.path = s.fetcher.path ∧
    (s.updateSr i f).fetcher.grant = s.fetcher.grant ∧ (s.updateSr i f).fetcher.used = s.fetcher.used ∧
    (s.updateSr i f).fetcher.grantWeight = s.fetcher.grantWeight :=
  ⟨rfl, rfl, rfl, rfl, rfl, rfl, rfl, rfl, rfl, rfl, rfl, rfl, rfl, rfl, rfl⟩

@[simp] theorem State.updateCr_frame (s : State) (c : Fin 8) (f : CompletionRing → CompletionRing) :
    (s.updateCr c f).host = s.host ∧ (s.updateCr c f).fetcher = s.fetcher ∧ (s.updateCr c f).executor = s.executor ∧
    (s.updateCr c f).table = s.table ∧ (s.updateCr c f).wheel = s.wheel ∧ (s.updateCr c f).expiry = s.expiry ∧
    (s.updateCr c f).domains = s.domains ∧ (s.updateCr c f).timebase = s.timebase ∧ (s.updateCr c f).transfer = s.transfer ∧
    (s.updateCr c f).choices = s.choices ∧ (s.updateCr c f).pending = s.pending ∧ (s.updateCr c f).poster.events = s.poster.events ∧
    (s.updateCr c f).poster.writes = s.poster.writes :=
  ⟨rfl, rfl, rfl, rfl, rfl, rfl, rfl, rfl, rfl, rfl, rfl, rfl, rfl⟩

@[simp] theorem State.pushDma_frame (s : State) (q : DmaRequest) :
    (s.pushDma q).fetcher = s.fetcher ∧ (s.pushDma q).executor = s.executor ∧ (s.pushDma q).table = s.table ∧
    (s.pushDma q).wheel = s.wheel ∧ (s.pushDma q).expiry = s.expiry ∧ (s.pushDma q).domains = s.domains ∧
    (s.pushDma q).timebase = s.timebase ∧ (s.pushDma q).poster = s.poster ∧ (s.pushDma q).transfer = s.transfer ∧
    (s.pushDma q).choices = s.choices ∧ (s.pushDma q).pending = s.pending ∧ (s.pushDma q).host = { s.host with dma := s.host.dma ++ [q] } :=
  ⟨rfl, rfl, rfl, rfl, rfl, rfl, rfl, rfl, rfl, rfl, rfl, rfl⟩

@[simp] theorem State.endDma_frame (s : State) (p : DmaRequest → Bool) :
    (s.endDma p).fetcher = s.fetcher ∧ (s.endDma p).executor = s.executor ∧ (s.endDma p).table = s.table ∧ (s.endDma p).wheel = s.wheel ∧
    (s.endDma p).expiry = s.expiry ∧ (s.endDma p).domains = s.domains ∧ (s.endDma p).timebase = s.timebase ∧
    (s.endDma p).poster = s.poster ∧ (s.endDma p).transfer = s.transfer ∧ (s.endDma p).choices = s.choices ∧
    (s.endDma p).pending = s.pending ∧ (s.endDma p).host = { s.host with dma := s.host.dma.eraseP p } :=
  ⟨rfl, rfl, rfl, rfl, rfl, rfl, rfl, rfl, rfl, rfl, rfl, rfl⟩

@[simp] theorem State.raise_frame (s : State) (k : EventKind) (src : EventSource) (cause : ErrorCause) :
    (s.raise k src cause).host = s.host ∧ (s.raise k src cause).fetcher = s.fetcher ∧ (s.raise k src cause).executor = s.executor ∧
    (s.raise k src cause).table = s.table ∧ (s.raise k src cause).wheel = s.wheel ∧ (s.raise k src cause).expiry = s.expiry ∧
    (s.raise k src cause).domains = s.domains ∧ (s.raise k src cause).timebase = s.timebase ∧ (s.raise k src cause).transfer = s.transfer ∧
    (s.raise k src cause).choices = s.choices ∧ (s.raise k src cause).pending = s.pending ∧
    (s.raise k src cause).poster.rings = s.poster.rings ∧ (s.raise k src cause).poster.writes = s.poster.writes :=
  ⟨rfl, rfl, rfl, rfl, rfl, rfl, rfl, rfl, rfl, rfl, rfl, rfl, rfl⟩

/-! ### What each update writes -/

@[simp] theorem State.domain_updateDomain (s : State) (d j : Fin 64) (f : Domain → Domain) :
    (s.updateDomain d f).domain j = if j = d then f (s.domain d) else s.domain j := updateAt_get _ _ _ _

@[simp] theorem State.sr_updateSr (s : State) (i j : Fin 8) (f : SubmissionRing → SubmissionRing) :
    (s.updateSr i f).sr j = if j = i then f (s.sr i) else s.sr j := updateAt_get _ _ _ _

@[simp] theorem State.cr_updateCr (s : State) (c j : Fin 8) (f : CompletionRing → CompletionRing) :
    (s.updateCr c f).cr j = if j = c then f (s.cr c) else s.cr j := updateAt_get _ _ _ _

/-! ### Accessors follow the blocks they read -/

theorem State.domain_congr {s t : State} (h : t.domains = s.domains) (d : Fin 64) : t.domain d = s.domain d := by
  simp [State.domain, h]

theorem State.sr_congr {s t : State} (h : t.fetcher.rings = s.fetcher.rings) (i : Fin 8) : t.sr i = s.sr i := by
  simp [State.sr, h]

theorem State.cr_congr {s t : State} (h : t.poster.rings = s.poster.rings) (c : Fin 8) : t.cr c = s.cr c := by
  simp [State.cr, h]

theorem State.ready_congr {s t : State} (h : t.host.device = s.host.device) : t.ready = s.ready := by
  simp [State.ready, h]

/-! ### Accessors that an update leaves -/

@[simp] theorem State.setRow_accessors (s : State) (k : Nat) (r : TableRow) :
    (∀ j, (s.setRow k r).domain j = s.domain j) ∧ (∀ j, (s.setRow k r).sr j = s.sr j) ∧ (∀ j, (s.setRow k r).cr j = s.cr j) ∧ ((s.setRow k r).ready = s.ready) :=
  ⟨fun _ => rfl, fun _ => rfl, fun _ => rfl, rfl⟩

@[simp] theorem State.setEntry_accessors (s : State) (k : Nat) (e : Entry) :
    (∀ j, (s.setEntry k e).domain j = s.domain j) ∧ (∀ j, (s.setEntry k e).sr j = s.sr j) ∧ (∀ j, (s.setEntry k e).cr j = s.cr j) ∧ ((s.setEntry k e).ready = s.ready) :=
  ⟨fun _ => rfl, fun _ => rfl, fun _ => rfl, rfl⟩

@[simp] theorem State.updateDomain_accessors (s : State) (d : Fin 64) (f : Domain → Domain) :
    (∀ j, (s.updateDomain d f).rowAt j = s.rowAt j) ∧ (∀ j, (s.updateDomain d f).sr j = s.sr j) ∧ (∀ j, (s.updateDomain d f).cr j = s.cr j) ∧ ((s.updateDomain d f).ready = s.ready) :=
  ⟨fun _ => rfl, fun _ => rfl, fun _ => rfl, rfl⟩

@[simp] theorem State.updateSr_accessors (s : State) (i : Fin 8) (f : SubmissionRing → SubmissionRing) :
    (∀ j, (s.updateSr i f).rowAt j = s.rowAt j) ∧ (∀ j, (s.updateSr i f).domain j = s.domain j) ∧ (∀ j, (s.updateSr i f).cr j = s.cr j) ∧ ((s.updateSr i f).ready = s.ready) :=
  ⟨fun _ => rfl, fun _ => rfl, fun _ => rfl, rfl⟩

@[simp] theorem State.updateCr_accessors (s : State) (c : Fin 8) (f : CompletionRing → CompletionRing) :
    (∀ j, (s.updateCr c f).rowAt j = s.rowAt j) ∧ (∀ j, (s.updateCr c f).domain j = s.domain j) ∧ (∀ j, (s.updateCr c f).sr j = s.sr j) ∧ ((s.updateCr c f).ready = s.ready) :=
  ⟨fun _ => rfl, fun _ => rfl, fun _ => rfl, rfl⟩

@[simp] theorem State.pushDma_accessors (s : State) (q : DmaRequest) :
    (∀ j, (s.pushDma q).rowAt j = s.rowAt j) ∧ (∀ j, (s.pushDma q).domain j = s.domain j) ∧ (∀ j, (s.pushDma q).sr j = s.sr j) ∧ (∀ j, (s.pushDma q).cr j = s.cr j) ∧ ((s.pushDma q).ready = s.ready) :=
  ⟨fun _ => rfl, fun _ => rfl, fun _ => rfl, fun _ => rfl, rfl⟩

@[simp] theorem State.endDma_accessors (s : State) (p : DmaRequest → Bool) :
    (∀ j, (s.endDma p).rowAt j = s.rowAt j) ∧ (∀ j, (s.endDma p).domain j = s.domain j) ∧ (∀ j, (s.endDma p).sr j = s.sr j) ∧ (∀ j, (s.endDma p).cr j = s.cr j) ∧ ((s.endDma p).ready = s.ready) :=
  ⟨fun _ => rfl, fun _ => rfl, fun _ => rfl, fun _ => rfl, rfl⟩

@[simp] theorem State.raise_accessors (s : State) (k : EventKind) (src : EventSource) (cause : ErrorCause) :
    (∀ j, (s.raise k src cause).rowAt j = s.rowAt j) ∧ (∀ j, (s.raise k src cause).domain j = s.domain j) ∧ (∀ j, (s.raise k src cause).sr j = s.sr j) ∧ (∀ j, (s.raise k src cause).cr j = s.cr j) ∧ ((s.raise k src cause).ready = s.ready) :=
  ⟨fun _ => rfl, fun _ => rfl, fun _ => rfl, fun _ => rfl, rfl⟩

end Sys2Proof.Machine
end

