-- ==== Sys2Proof/Laws/Ops.lean ====
section
/-! SUPPORT. What each shared operation leaves: the counts of trips (R65), the wheel's removal and placement (R28, R31), the free (R14), the message
(R163), the take for writing (R154), the hand-overs (R156, R157) and the reply (R111). What they do is said in Laws/Specs.lean. -/

namespace Sys2Proof.Machine

/-! ### Frames -/

@[simp] theorem State.uncountTrip_frame (s : State) (e : Entry) :
    (s.uncountTrip e).host = s.host ∧ (s.uncountTrip e).fetcher = s.fetcher ∧ (s.uncountTrip e).executor = s.executor ∧
    (s.uncountTrip e).table = s.table ∧ (s.uncountTrip e).wheel = s.wheel ∧ (s.uncountTrip e).domains = s.domains ∧
    (s.uncountTrip e).timebase = s.timebase ∧ (s.uncountTrip e).poster = s.poster ∧ (s.uncountTrip e).transfer = s.transfer ∧
    (s.uncountTrip e).choices = s.choices ∧ (s.uncountTrip e).pending = s.pending :=
  by unfold State.uncountTrip; split <;> simp

@[simp] theorem State.countTrip_frame (s : State) (b : Bool) :
    (s.countTrip b).host = s.host ∧ (s.countTrip b).fetcher = s.fetcher ∧ (s.countTrip b).executor = s.executor ∧
    (s.countTrip b).table = s.table ∧ (s.countTrip b).wheel = s.wheel ∧ (s.countTrip b).domains = s.domains ∧
    (s.countTrip b).timebase = s.timebase ∧ (s.countTrip b).poster = s.poster ∧ (s.countTrip b).transfer = s.transfer ∧
    (s.countTrip b).choices = s.choices ∧ (s.countTrip b).pending = s.pending :=
  by unfold State.countTrip; split <;> simp

@[simp] theorem State.leavePlace_frame (s : State) (k : Nat) (e : Entry) :
    (s.leavePlace k e).host = s.host ∧ (s.leavePlace k e).fetcher = s.fetcher ∧ (s.leavePlace k e).executor = s.executor ∧
    (s.leavePlace k e).table = s.table ∧ (s.leavePlace k e).expiry = s.expiry ∧ (s.leavePlace k e).timebase = s.timebase ∧
    (s.leavePlace k e).poster = s.poster ∧ (s.leavePlace k e).transfer = s.transfer ∧ (s.leavePlace k e).choices = s.choices ∧
    (s.leavePlace k e).pending = s.pending ∧ (s.leavePlace k e).wheel.time = s.wheel.time ∧
    (s.leavePlace k e).wheel.overrun = s.wheel.overrun :=
  by
  unfold State.leavePlace
  cases e.location with
  | none => simp only; split <;> simp
  | some l => cases l <;> simp only [Wheel.remove, Wheel.updateSlot] <;> split <;> simp

@[simp] theorem State.place_frame (s : State) (k : Nat) (e : Entry) :
    (s.place k e).host = s.host ∧ (s.place k e).fetcher = s.fetcher ∧ (s.place k e).executor = s.executor ∧
    (s.place k e).expiry = s.expiry ∧ (s.place k e).domains = s.domains ∧ (s.place k e).timebase = s.timebase ∧
    (s.place k e).poster = s.poster ∧ (s.place k e).transfer = s.transfer ∧ (s.place k e).choices = s.choices ∧
    (s.place k e).pending = s.pending ∧ (s.place k e).table.freeList = s.table.freeList ∧
    (s.place k e).table.reservation = s.table.reservation ∧ (s.place k e).table.waiting = s.table.waiting ∧
    (s.place k e).wheel.time = s.wheel.time ∧ (s.place k e).wheel.overrun = s.wheel.overrun ∧ (s.place k e).wheel.step = s.wheel.step :=
  by
  unfold State.place
  cases placement s.wheel.time e.deadline <;> simp [Wheel.append, Wheel.updateSlot]

@[simp] theorem State.uncount_frame (s : State) (e : Entry) :
    (s.uncount e).host = s.host ∧ (s.uncount e).fetcher = s.fetcher ∧ (s.uncount e).executor = s.executor ∧ (s.uncount e).table = s.table ∧
    (s.uncount e).wheel = s.wheel ∧ (s.uncount e).timebase = s.timebase ∧ (s.uncount e).transfer = s.transfer ∧
    (s.uncount e).choices = s.choices ∧ (s.uncount e).pending = s.pending ∧ (s.uncount e).poster.events = s.poster.events ∧
    (s.uncount e).poster.writes = s.poster.writes :=
  by simp [State.uncount]

@[simp] theorem State.freeEntry_frame (s : State) (k : Nat) :
    (s.freeEntry k).host = s.host ∧ (s.freeEntry k).fetcher = s.fetcher ∧ (s.freeEntry k).executor = s.executor ∧
    (s.freeEntry k).timebase = s.timebase ∧ (s.freeEntry k).transfer = s.transfer ∧ (s.freeEntry k).choices = s.choices ∧
    (s.freeEntry k).pending = s.pending ∧ (s.freeEntry k).table.reservation = s.table.reservation ∧
    (s.freeEntry k).table.waiting = s.table.waiting ∧ (s.freeEntry k).wheel.time = s.wheel.time ∧
    (s.freeEntry k).wheel.overrun = s.wheel.overrun ∧ (s.freeEntry k).poster.events = s.poster.events ∧
    (s.freeEntry k).poster.writes = s.poster.writes :=
  by
  unfold State.freeEntry
  cases s.entryAt k with
  | none => simp
  | some e => simp only; split <;> simp

@[simp] theorem State.sendMessage_frame (s : State) (c : Fin 8) :
    (s.sendMessage c).fetcher = s.fetcher ∧ (s.sendMessage c).executor = s.executor ∧ (s.sendMessage c).table = s.table ∧
    (s.sendMessage c).wheel = s.wheel ∧ (s.sendMessage c).expiry = s.expiry ∧ (s.sendMessage c).domains = s.domains ∧
    (s.sendMessage c).timebase = s.timebase ∧ (s.sendMessage c).transfer = s.transfer ∧ (s.sendMessage c).choices = s.choices ∧
    (s.sendMessage c).pending = s.pending ∧ (s.sendMessage c).host.device = s.host.device ∧ (s.sendMessage c).host.enable = s.host.enable ∧
    (s.sendMessage c).host.admin = s.host.admin ∧ (s.sendMessage c).host.resetCause = s.host.resetCause ∧
    (s.sendMessage c).host.fatalCause = s.host.fatalCause ∧ (s.sendMessage c).host.readData = s.host.readData ∧
    (s.sendMessage c).poster.events = s.poster.events ∧ (s.sendMessage c).poster.writes = s.poster.writes :=
  by simp [State.sendMessage]

@[simp] theorem State.takeForWriting_frame (s : State) (c : Fin 8) (b : Bool) (r : Completion) (o : RecordOrigin) :
    (s.takeForWriting c b r o).fetcher = s.fetcher ∧ (s.takeForWriting c b r o).executor = s.executor ∧
    (s.takeForWriting c b r o).table = s.table ∧ (s.takeForWriting c b r o).wheel = s.wheel ∧
    (s.takeForWriting c b r o).expiry = s.expiry ∧ (s.takeForWriting c b r o).domains = s.domains ∧
    (s.takeForWriting c b r o).timebase = s.timebase ∧ (s.takeForWriting c b r o).transfer = s.transfer ∧
    (s.takeForWriting c b r o).choices = s.choices ∧ (s.takeForWriting c b r o).pending = s.pending ∧
    (s.takeForWriting c b r o).host.device = s.host.device ∧ (s.takeForWriting c b r o).host.enable = s.host.enable ∧
    (s.takeForWriting c b r o).host.admin = s.host.admin ∧ (s.takeForWriting c b r o).host.resetCause = s.host.resetCause ∧
    (s.takeForWriting c b r o).host.fatalCause = s.host.fatalCause ∧ (s.takeForWriting c b r o).host.readData = s.host.readData ∧
    (s.takeForWriting c b r o).poster.events = s.poster.events ∧ (s.takeForWriting c b r o).poster.writes = s.poster.writes + 1 :=
  by unfold State.takeForWriting; simp only; split <;> simp

@[simp] theorem State.handCompletion_frame (s : State) (c : Fin 8) (r : Completion) :
    (s.handCompletion c r).fetcher = s.fetcher ∧ (s.handCompletion c r).executor = s.executor ∧ (s.handCompletion c r).table = s.table ∧
    (s.handCompletion c r).wheel = s.wheel ∧ (s.handCompletion c r).expiry = s.expiry ∧ (s.handCompletion c r).domains = s.domains ∧
    (s.handCompletion c r).timebase = s.timebase ∧ (s.handCompletion c r).transfer = s.transfer ∧
    (s.handCompletion c r).choices = s.choices ∧ (s.handCompletion c r).pending = s.pending ∧
    (s.handCompletion c r).host.device = s.host.device ∧ (s.handCompletion c r).host.enable = s.host.enable ∧
    (s.handCompletion c r).host.admin = s.host.admin ∧ (s.handCompletion c r).host.resetCause = s.host.resetCause ∧
    (s.handCompletion c r).host.fatalCause = s.host.fatalCause ∧ (s.handCompletion c r).host.readData = s.host.readData ∧
    (s.handCompletion c r).poster.events = s.poster.events :=
  by unfold State.handCompletion; split <;> simp

@[simp] theorem State.reply_frame (s : State) (k : Ticket) (r : Reply) :
    (s.reply k r).fetcher = s.fetcher ∧ (s.reply k r).executor = s.executor ∧ (s.reply k r).table = s.table ∧
    (s.reply k r).wheel = s.wheel ∧ (s.reply k r).expiry = s.expiry ∧ (s.reply k r).domains = s.domains ∧
    (s.reply k r).timebase = s.timebase ∧ (s.reply k r).transfer = s.transfer ∧ (s.reply k r).choices = s.choices ∧
    (s.reply k r).pending = s.pending ∧ (s.reply k r).host.device = s.host.device ∧ (s.reply k r).host.enable = s.host.enable ∧
    (s.reply k r).host.admin = s.host.admin ∧ (s.reply k r).host.resetCause = s.host.resetCause ∧
    (s.reply k r).host.fatalCause = s.host.fatalCause ∧ (s.reply k r).host.readData = s.host.readData ∧
    (s.reply k r).poster.events = s.poster.events :=
  by simp [State.reply]

@[simp] theorem State.takeExpiry_frame (s : State) (c : Fin 8) (k : Nat) :
    (s.takeExpiry c k).fetcher = s.fetcher ∧ (s.takeExpiry c k).executor = s.executor ∧ (s.takeExpiry c k).timebase = s.timebase ∧
    (s.takeExpiry c k).transfer = s.transfer ∧ (s.takeExpiry c k).choices = s.choices ∧ (s.takeExpiry c k).pending = s.pending ∧
    (s.takeExpiry c k).host.device = s.host.device ∧ (s.takeExpiry c k).host.enable = s.host.enable ∧
    (s.takeExpiry c k).host.admin = s.host.admin ∧ (s.takeExpiry c k).host.resetCause = s.host.resetCause ∧
    (s.takeExpiry c k).host.fatalCause = s.host.fatalCause ∧ (s.takeExpiry c k).host.readData = s.host.readData ∧
    (s.takeExpiry c k).poster.events = s.poster.events ∧ (s.takeExpiry c k).wheel.time = s.wheel.time ∧
    (s.takeExpiry c k).wheel.overrun = s.wheel.overrun ∧ (s.takeExpiry c k).table.reservation = s.table.reservation ∧
    (s.takeExpiry c k).table.waiting = s.table.waiting :=
  by
  unfold State.takeExpiry
  split
  · simp
  · split
    · simp
    · simp only; split <;> simp

@[simp] theorem State.handExpiry_frame (s : State) (c : Fin 8) (k : Nat) :
    (s.handExpiry c k).fetcher = s.fetcher ∧ (s.handExpiry c k).executor = s.executor ∧ (s.handExpiry c k).timebase = s.timebase ∧
    (s.handExpiry c k).transfer = s.transfer ∧ (s.handExpiry c k).choices = s.choices ∧ (s.handExpiry c k).pending = s.pending ∧
    (s.handExpiry c k).host.device = s.host.device ∧ (s.handExpiry c k).host.enable = s.host.enable ∧
    (s.handExpiry c k).host.admin = s.host.admin ∧ (s.handExpiry c k).host.resetCause = s.host.resetCause ∧
    (s.handExpiry c k).host.fatalCause = s.host.fatalCause ∧ (s.handExpiry c k).host.readData = s.host.readData ∧
    (s.handExpiry c k).poster.events = s.poster.events ∧ (s.handExpiry c k).wheel.time = s.wheel.time ∧
    (s.handExpiry c k).wheel.overrun = s.wheel.overrun ∧ (s.handExpiry c k).table.reservation = s.table.reservation ∧
    (s.handExpiry c k).table.waiting = s.table.waiting :=
  by unfold State.handExpiry; split <;> simp


end Sys2Proof.Machine
end

