-- ==== Sys2Proof/Laws/Executor.lean ====
section
/-! SUPPORT. Laws of what the commands share: the take, the order of checks, the ends of a command. A meaning built from `runCommand` and `checked` is
reasoned about through `runCommand_ind` and `checked_ind` alone. -/

namespace Sys2Proof.Machine

/-! ### The order of checks -/

/-- No check fails exactly when each passes. -/
theorem firstFailure_eq_none {l : List (Bool × Status)} : firstFailure l = none ↔ ∀ p ∈ l, p.1 = false := by
  induction l with
  | nil => simp [firstFailure]
  | cons p rest ih =>
    obtain ⟨b, st⟩ := p
    cases b <;> simp [firstFailure, ih]

/-! ### Frames -/

@[simp] theorem State.takeRecord_frame (s : State) :
    (s.takeRecord).host = s.host ∧ (s.takeRecord).table = s.table ∧ (s.takeRecord).wheel = s.wheel ∧ (s.takeRecord).expiry = s.expiry ∧
    (s.takeRecord).domains = s.domains ∧ (s.takeRecord).timebase = s.timebase ∧ (s.takeRecord).poster = s.poster ∧
    (s.takeRecord).transfer = s.transfer ∧ (s.takeRecord).choices = s.choices ∧ (s.takeRecord).pending = s.pending ∧
    (s.takeRecord).fetcher.rings = s.fetcher.rings ∧ (s.takeRecord).fetcher.grant = s.fetcher.grant ∧
    (s.takeRecord).fetcher.used = s.fetcher.used ∧ (s.takeRecord).fetcher.grantWeight = s.fetcher.grantWeight ∧
    (s.takeRecord).executor.held = s.executor.held :=
  by unfold State.takeRecord; split <;> simp

@[simp] theorem State.takeRecord_accessors (s : State) :
    (∀ j, s.takeRecord.rowAt j = s.rowAt j) ∧ (∀ j, s.takeRecord.domain j = s.domain j) ∧ (∀ j, s.takeRecord.sr j = s.sr j) ∧
    (∀ j, s.takeRecord.cr j = s.cr j) ∧ (s.takeRecord.ready = s.ready) := by
  unfold State.takeRecord
  split <;> exact ⟨fun _ => rfl, fun _ => rfl, fun _ => rfl, fun _ => rfl, rfl⟩

@[simp] theorem State.handHeld_frame (s : State) :
    (s.handHeld).fetcher = s.fetcher ∧ (s.handHeld).table = s.table ∧ (s.handHeld).wheel = s.wheel ∧ (s.handHeld).expiry = s.expiry ∧
    (s.handHeld).domains = s.domains ∧ (s.handHeld).timebase = s.timebase ∧ (s.handHeld).transfer = s.transfer ∧
    (s.handHeld).choices = s.choices ∧ (s.handHeld).pending = s.pending ∧ (s.handHeld).host.device = s.host.device ∧
    (s.handHeld).host.enable = s.host.enable ∧ (s.handHeld).host.admin = s.host.admin ∧ (s.handHeld).host.resetCause = s.host.resetCause ∧
    (s.handHeld).host.fatalCause = s.host.fatalCause ∧ (s.handHeld).host.readData = s.host.readData ∧
    (s.handHeld).poster.events = s.poster.events :=
  by unfold State.handHeld; split <;> simp

@[simp] theorem State.finishClosing_frame (s : State) (i : Fin 8) :
    (s.finishClosing i).table = s.table ∧ (s.finishClosing i).wheel = s.wheel ∧ (s.finishClosing i).expiry = s.expiry ∧
    (s.finishClosing i).domains = s.domains ∧ (s.finishClosing i).timebase = s.timebase ∧ (s.finishClosing i).transfer = s.transfer ∧
    (s.finishClosing i).choices = s.choices ∧ (s.finishClosing i).pending = s.pending ∧ (s.finishClosing i).host.device = s.host.device ∧
    (s.finishClosing i).host.enable = s.host.enable ∧ (s.finishClosing i).host.admin = s.host.admin ∧
    (s.finishClosing i).host.resetCause = s.host.resetCause ∧ (s.finishClosing i).host.fatalCause = s.host.fatalCause ∧
    (s.finishClosing i).host.readData = s.host.readData ∧ (s.finishClosing i).poster.events = s.poster.events ∧
    (s.finishClosing i).fetcher.path = s.fetcher.path ∧ (s.finishClosing i).fetcher.grant = s.fetcher.grant ∧
    (s.finishClosing i).fetcher.used = s.fetcher.used :=
  by unfold State.finishClosing; split <;> simp

@[simp] theorem State.endCommand_frame (s : State) (k : Ticket) :
    (s.endCommand k).table = s.table ∧ (s.endCommand k).wheel = s.wheel ∧ (s.endCommand k).expiry = s.expiry ∧
    (s.endCommand k).domains = s.domains ∧ (s.endCommand k).timebase = s.timebase ∧ (s.endCommand k).transfer = s.transfer ∧
    (s.endCommand k).choices = s.choices ∧ (s.endCommand k).pending = s.pending ∧ (s.endCommand k).host.device = s.host.device ∧
    (s.endCommand k).host.enable = s.host.enable ∧ (s.endCommand k).host.admin = s.host.admin ∧
    (s.endCommand k).host.resetCause = s.host.resetCause ∧ (s.endCommand k).host.fatalCause = s.host.fatalCause ∧
    (s.endCommand k).host.readData = s.host.readData ∧ (s.endCommand k).poster.events = s.poster.events ∧
    (s.endCommand k).fetcher.path = s.fetcher.path ∧ (s.endCommand k).fetcher.grant = s.fetcher.grant ∧
    (s.endCommand k).fetcher.used = s.fetcher.used :=
  by simp [State.endCommand]

@[simp] theorem State.answer_frame (s : State) (k : Ticket) (r : Reply) :
    (s.answer k r).table = s.table ∧ (s.answer k r).wheel = s.wheel ∧ (s.answer k r).expiry = s.expiry ∧
    (s.answer k r).domains = s.domains ∧ (s.answer k r).timebase = s.timebase ∧ (s.answer k r).transfer = s.transfer ∧
    (s.answer k r).choices = s.choices ∧ (s.answer k r).pending = s.pending ∧ (s.answer k r).host.device = s.host.device ∧
    (s.answer k r).host.enable = s.host.enable ∧ (s.answer k r).host.admin = s.host.admin ∧
    (s.answer k r).host.resetCause = s.host.resetCause ∧ (s.answer k r).host.fatalCause = s.host.fatalCause ∧
    (s.answer k r).host.readData = s.host.readData ∧ (s.answer k r).poster.events = s.poster.events ∧
    (s.answer k r).fetcher.path = s.fetcher.path ∧ (s.answer k r).fetcher.grant = s.fetcher.grant ∧
    (s.answer k r).fetcher.used = s.fetcher.used :=
  by simp [State.answer]

/-! ### What a command can end in -/

/-- Whatever holds of the state before, of every refusal and of every run of the body, holds after `runCommand`. -/
theorem runCommand_ind {k : CommandKind} {fieldsBad : CommandBits → Nat → Bool} {body : Taken → State → State} {s : State}
    {Q : State → Prop} (hs : Q s)
    (hrefused : ∀ w r, s.inHand = some w → Q (s.takeRecord.answer w.ticket r))
    (hbody : ∀ w, s.inHand = some w → kindOf w.record = some k → (k.adminOnly = true → w.ticket.source = 0) →
      fieldsBad w.record w.takenAt = false → Q (body w s.takeRecord)) :
    Q (runCommand k fieldsBad body s) := by
  unfold runCommand
  split
  · exact hs
  · rename_i w hw
    split
    · rename_i hk
      split
      · exact hrefused w _ hw
      · rename_i hadm
        split
        · exact hrefused w _ hw
        · rename_i hf
          exact hbody w hw hk (fun ha => by by_contra h; exact hadm ⟨ha, h⟩) (by simpa using hf)
    · exact hs

/-- Whatever holds of every refusal and of the effect, once every check has passed, holds after `checked`. -/
theorem checked_ind {k : CommandKind} {w : Taken} {checks : List (Bool × Status)} {effect : State → State × Reply} {s : State}
    {Q : State → Prop} (hrefused : ∀ p, Q (s.answer w.ticket p))
    (heffect : (∀ p ∈ checks, p.1 = false) → Q ((effect s).1.answer w.ticket (effect s).2)) : Q (checked k w checks effect s) := by
  unfold checked
  split
  · exact hrefused _
  · rename_i h
    exact heffect (firstFailure_eq_none.1 h)

/-- The same for a job-kind command. -/
theorem checkedJob_ind {k : CommandKind} {w : Taken} {checks : List (Bool × Status)} {start : State → State} {s : State}
    {Q : State → Prop} (hrefused : ∀ p, Q (s.answer w.ticket p))
    (hstart : (∀ p ∈ checks, p.1 = false) → Q ((start s).endCommand w.ticket)) : Q (checkedJob k w checks start s) := by
  unfold checkedJob
  split
  · exact hrefused _
  · rename_i h
    exact hstart (firstFailure_eq_none.1 h)

/-- R106: a record can be taken only in READY, with the executor IDLE and the record in its input place. -/
theorem takeable_eq_some {s : State} {d : Delivered} : s.takeable = some d ↔
    s.ready = true ∧ s.executor.state = .idle ∧ s.executor.input = some d ∧ ∀ h, s.executor.held = some h → d.source = h.closing := by
  unfold State.takeable
  split
  · rename_i h
    cases hi : s.executor.input <;> cases hh : s.executor.held <;> simp [h.1, h.2]
    constructor
    · rintro ⟨hc, rfl⟩; exact ⟨rfl, hc⟩
    · rintro ⟨rfl, hc⟩; exact ⟨hc, rfl⟩
  · rename_i h
    simp only [reduceCtorEq, false_iff]
    rintro ⟨h1, h2, -⟩
    exact h ⟨h1, h2⟩

/-- R106: a take, where one is possible. -/
theorem State.takeRecord_of_takeable {s : State} {d : Delivered} (h : s.takeable = some d) : s.takeRecord =
    { s with
      executor := { s.executor with state := .executing (d.taken s.timebase.time), input := none }
      fetcher := { s.fetcher with path := s.fetcher.path.onTake } } := by
  simp [State.takeRecord, h]

/-- Where no record can be taken, the take changes nothing. -/
theorem State.takeRecord_of_not_takeable {s : State} (h : s.takeable = none) : s.takeRecord = s := by
  simp [State.takeRecord, h]

/-- R106: an executor that is not IDLE takes nothing. -/
theorem State.takeable_of_busy {s : State} (h : s.executor.state ≠ .idle) : s.takeable = none := by
  cases e : s.takeable with
  | none => rfl
  | some d => exact absurd (takeable_eq_some.1 e).2.1 h

/-- R106: the command in hand is the one the executor is EXECUTING, or the one it may take, with N as read now. -/
theorem State.inHand_eq_some {s : State} {w : Taken} : s.inHand = some w ↔
    s.executor.state = .executing w ∨ ∃ d, s.takeable = some d ∧ w = d.taken s.timebase.time := by
  unfold State.inHand
  cases e : s.takeable with
  | none =>
    rw [State.takeRecord_of_not_takeable e]
    split <;> simp_all
  | some d =>
    have hi := (takeable_eq_some.1 e).2.1
    rw [State.takeRecord_of_takeable e]
    simp [hi, eq_comm]

/-- After the take the command in hand is in EXECUTING, and it stays the command in hand. -/
theorem State.takeRecord_executing {s : State} {w : Taken} (h : s.inHand = some w) : s.takeRecord.executor.state = .executing w := by
  unfold State.inHand at h
  split at h <;> simp_all

end Sys2Proof.Machine
end

