-- ==== Sys2Proof/Laws/Frames.lean ====
section
/-! SUPPORT. What the named parts of the meanings leave. A claim about one block is proved from these without unfolding the parts that do not touch
it. -/

namespace Sys2Proof.Machine

/-! ### One act on several items -/

/-- Whatever one claim's act keeps for each item, and a used-up choice keeps, holds after the claim. -/
theorem State.forEach_ind {Q : State → Prop} {s : State} {items : List Nat} {act : Nat → State → State} (hs : Q s)
    (hchoice : ∀ s, Q s → Q { s with choices := s.choices + 1 }) (hact : ∀ k s, k ∈ items → Q s → Q (act k s)) : Q (s.forEach items act) := by
  have fold : ∀ (l : List Nat) (s : State), (∀ k ∈ l, k ∈ items) → Q s → Q (l.foldl (fun s k => act k s) s) := by
    intro l
    induction l with
    | nil => intro s _ h; exact h
    | cons k rest ih => intro s hl h; exact ih _ (fun j hj => hl j (by simp [hj])) (hact k s (hl k (by simp)) h)
  unfold State.forEach
  split
  · exact fold items s (fun _ h => h) hs
  · exact fold _ _ (fun k hk => (List.perm_insertionSort _ items).mem_iff.1 hk) (hchoice s hs)

/-- Whatever an act keeps holds after a fold. -/
theorem foldl_ind {α : Type} {Q : State → Prop} {l : List α} {act : State → α → State} {s : State} (hs : Q s)
    (hact : ∀ s a, a ∈ l → Q s → Q (act s a)) : Q (l.foldl act s) := by
  induction l generalizing s with
  | nil => exact hs
  | cons a rest ih => exact ih (hact s a (by simp) hs) (fun s b hb => hact s b (by simp [hb]))

/-! ### Frames -/

@[simp] theorem State.allocateHead_frame (s : State) (c : Fin 8) :
    (s.allocateHead c).host = s.host ∧ (s.allocateHead c).fetcher = s.fetcher ∧ (s.allocateHead c).executor = s.executor ∧
    (s.allocateHead c).wheel = s.wheel ∧ (s.allocateHead c).expiry = s.expiry ∧ (s.allocateHead c).domains = s.domains ∧
    (s.allocateHead c).timebase = s.timebase ∧ (s.allocateHead c).transfer = s.transfer ∧ (s.allocateHead c).choices = s.choices ∧
    (s.allocateHead c).pending = s.pending ∧ (s.allocateHead c).table.rows = s.table.rows ∧
    (s.allocateHead c).table.freeList = s.table.freeList.tail ∧ (s.allocateHead c).table.reservation = s.table.reservation ∧
    (s.allocateHead c).table.waiting = s.table.waiting ∧ (s.allocateHead c).poster.events = s.poster.events ∧
    (s.allocateHead c).poster.writes = s.poster.writes :=
  by
  simp [State.allocateHead]

@[simp] theorem State.freeAll_frame (s : State) (l : List Nat) :
    (s.freeAll l).host = s.host ∧ (s.freeAll l).fetcher = s.fetcher ∧ (s.freeAll l).executor = s.executor ∧
    (s.freeAll l).timebase = s.timebase ∧ (s.freeAll l).transfer = s.transfer ∧ (s.freeAll l).pending = s.pending ∧
    (s.freeAll l).table.reservation = s.table.reservation ∧ (s.freeAll l).table.waiting = s.table.waiting ∧
    (s.freeAll l).wheel.time = s.wheel.time ∧ (s.freeAll l).wheel.overrun = s.wheel.overrun ∧
    (s.freeAll l).poster.events = s.poster.events ∧ (s.freeAll l).poster.writes = s.poster.writes :=
  by
  unfold State.freeAll
  refine State.forEach_ind (Q := fun t => t.host = s.host ∧ t.fetcher = s.fetcher ∧ t.executor = s.executor ∧ t.timebase = s.timebase ∧
    t.transfer = s.transfer ∧ t.pending = s.pending ∧ t.table.reservation = s.table.reservation ∧ t.table.waiting = s.table.waiting ∧
    t.wheel.time = s.wheel.time ∧ t.wheel.overrun = s.wheel.overrun ∧ t.poster.events = s.poster.events ∧ t.poster.writes = s.poster.writes)
    (by simp) (fun _ h => h) (fun k t _ h => by simpa using h)

@[simp] theorem State.removeMarks_frame (s : State) (d : Fin 64) :
    (s.removeMarks d).host = s.host ∧ (s.removeMarks d).fetcher = s.fetcher ∧ (s.removeMarks d).executor = s.executor ∧
    (s.removeMarks d).wheel = s.wheel ∧ (s.removeMarks d).expiry = s.expiry ∧ (s.removeMarks d).domains = s.domains ∧
    (s.removeMarks d).timebase = s.timebase ∧ (s.removeMarks d).poster = s.poster ∧ (s.removeMarks d).transfer = s.transfer ∧
    (s.removeMarks d).choices = s.choices ∧ (s.removeMarks d).pending = s.pending ∧ (s.removeMarks d).table.freeList = s.table.freeList ∧
    (s.removeMarks d).table.reservation = s.table.reservation ∧ (s.removeMarks d).table.waiting = s.table.waiting :=
  by
  simp [State.removeMarks]

@[simp] theorem State.makeDue_frame (s : State) (k : Nat) :
    (s.makeDue k).host = s.host ∧ (s.makeDue k).fetcher = s.fetcher ∧ (s.makeDue k).executor = s.executor ∧ (s.makeDue k).wheel = s.wheel ∧
    (s.makeDue k).expiry = s.expiry ∧ (s.makeDue k).domains = s.domains ∧ (s.makeDue k).timebase = s.timebase ∧
    (s.makeDue k).poster = s.poster ∧ (s.makeDue k).transfer = s.transfer ∧ (s.makeDue k).choices = s.choices ∧
    (s.makeDue k).pending = s.pending ∧ (s.makeDue k).table.freeList = s.table.freeList ∧
    (s.makeDue k).table.reservation = s.table.reservation ∧ (s.makeDue k).table.waiting = s.table.waiting :=
  by
  unfold State.makeDue; split <;> simp

@[simp] theorem State.splice_frame (s : State) (l : List Nat) :
    (s.splice l).host = s.host ∧ (s.splice l).fetcher = s.fetcher ∧ (s.splice l).executor = s.executor ∧ (s.splice l).expiry = s.expiry ∧
    (s.splice l).domains = s.domains ∧ (s.splice l).timebase = s.timebase ∧ (s.splice l).poster = s.poster ∧
    (s.splice l).transfer = s.transfer ∧ (s.splice l).choices = s.choices ∧ (s.splice l).pending = s.pending ∧
    (s.splice l).table.freeList = s.table.freeList ∧ (s.splice l).table.reservation = s.table.reservation ∧
    (s.splice l).table.waiting = s.table.waiting ∧ (s.splice l).wheel.time = s.wheel.time ∧ (s.splice l).wheel.overrun = s.wheel.overrun ∧
    (s.splice l).wheel.step = s.wheel.step :=
  by
  have h : ∀ (l : List Nat) (s : State), (l.foldl State.makeDue s).host = s.host ∧ (l.foldl State.makeDue s).fetcher = s.fetcher ∧
      (l.foldl State.makeDue s).executor = s.executor ∧ (l.foldl State.makeDue s).expiry = s.expiry ∧
      (l.foldl State.makeDue s).domains = s.domains ∧ (l.foldl State.makeDue s).timebase = s.timebase ∧
      (l.foldl State.makeDue s).poster = s.poster ∧ (l.foldl State.makeDue s).transfer = s.transfer ∧
      (l.foldl State.makeDue s).choices = s.choices ∧ (l.foldl State.makeDue s).pending = s.pending ∧
      (l.foldl State.makeDue s).table.freeList = s.table.freeList ∧ (l.foldl State.makeDue s).table.reservation = s.table.reservation ∧
      (l.foldl State.makeDue s).table.waiting = s.table.waiting ∧ (l.foldl State.makeDue s).wheel = s.wheel := by
    intro l
    induction l with
    | nil => intro s; simp
    | cons k rest ih => intro s; simpa using ih (s.makeDue k)
  simp [State.splice, h]

@[simp] theorem State.lagTest_frame (s : State) :
    (s.lagTest).host = s.host ∧ (s.lagTest).fetcher = s.fetcher ∧ (s.lagTest).executor = s.executor ∧ (s.lagTest).table = s.table ∧
    (s.lagTest).expiry = s.expiry ∧ (s.lagTest).domains = s.domains ∧ (s.lagTest).timebase = s.timebase ∧
    (s.lagTest).transfer = s.transfer ∧ (s.lagTest).choices = s.choices ∧ (s.lagTest).pending = s.pending ∧
    (s.lagTest).wheel.time = s.wheel.time ∧ (s.lagTest).wheel.slots = s.wheel.slots ∧ (s.lagTest).wheel.overflow = s.wheel.overflow ∧
    (s.lagTest).wheel.dueQueue = s.wheel.dueQueue ∧ (s.lagTest).wheel.step = s.wheel.step ∧ (s.lagTest).poster.rings = s.poster.rings ∧
    (s.lagTest).poster.writes = s.poster.writes :=
  by
  unfold State.lagTest; split <;> simp

@[simp] theorem State.caughtUpTest_frame (s : State) :
    (s.caughtUpTest).host = s.host ∧ (s.caughtUpTest).fetcher = s.fetcher ∧ (s.caughtUpTest).executor = s.executor ∧
    (s.caughtUpTest).table = s.table ∧ (s.caughtUpTest).expiry = s.expiry ∧ (s.caughtUpTest).domains = s.domains ∧
    (s.caughtUpTest).timebase = s.timebase ∧ (s.caughtUpTest).transfer = s.transfer ∧ (s.caughtUpTest).choices = s.choices ∧
    (s.caughtUpTest).pending = s.pending ∧ (s.caughtUpTest).wheel.time = s.wheel.time ∧ (s.caughtUpTest).wheel.slots = s.wheel.slots ∧
    (s.caughtUpTest).wheel.overflow = s.wheel.overflow ∧ (s.caughtUpTest).wheel.dueQueue = s.wheel.dueQueue ∧
    (s.caughtUpTest).wheel.step = s.wheel.step ∧ (s.caughtUpTest).poster.rings = s.poster.rings ∧
    (s.caughtUpTest).poster.writes = s.poster.writes :=
  by
  unfold State.caughtUpTest; split
  · simp only; split <;> simp
  · simp

@[simp] theorem State.tick_frame (s : State) :
    (s.tick).fetcher = s.fetcher ∧ (s.tick).executor = s.executor ∧ (s.tick).table = s.table ∧ (s.tick).expiry = s.expiry ∧
    (s.tick).domains = s.domains ∧ (s.tick).transfer = s.transfer ∧ (s.tick).pending = s.pending ∧
    (s.tick).timebase = { s.timebase with time := nextTime s.timebase.time } ∧ (s.tick).wheel.time = s.wheel.time ∧
    (s.tick).wheel.slots = s.wheel.slots ∧ (s.tick).wheel.overflow = s.wheel.overflow ∧ (s.tick).wheel.dueQueue = s.wheel.dueQueue ∧
    (s.tick).wheel.step = s.wheel.step ∧ (s.tick).host.device = s.host.device ∧ (s.tick).host.enable = s.host.enable ∧
    (s.tick).host.admin = s.host.admin ∧ (s.tick).host.resetCause = s.host.resetCause ∧ (s.tick).host.fatalCause = s.host.fatalCause ∧
    (s.tick).host.readData = s.host.readData :=
  by
  unfold State.tick
  refine State.forEach_ind (Q := fun t => t.fetcher = s.fetcher ∧ t.executor = s.executor ∧ t.table = s.table ∧ t.expiry = s.expiry ∧ t.domains = s.domains ∧ t.transfer = s.transfer ∧ t.pending = s.pending ∧ t.timebase = { s.timebase with time := nextTime s.timebase.time } ∧ t.wheel.time = s.wheel.time ∧ t.wheel.slots = s.wheel.slots ∧ t.wheel.overflow = s.wheel.overflow ∧ t.wheel.dueQueue = s.wheel.dueQueue ∧ t.wheel.step = s.wheel.step ∧ t.host.device = s.host.device ∧ t.host.enable = s.host.enable ∧ t.host.admin = s.host.admin ∧ t.host.resetCause = s.host.resetCause ∧ t.host.fatalCause = s.host.fatalCause ∧ t.host.readData = s.host.readData )
    (by simp) (fun _ h => h) (fun k t _ h => by simpa using h)

@[simp] theorem State.countEdge_frame (s : State) :
    (s.countEdge).fetcher = s.fetcher ∧ (s.countEdge).executor = s.executor ∧ (s.countEdge).table = s.table ∧
    (s.countEdge).expiry = s.expiry ∧ (s.countEdge).domains = s.domains ∧ (s.countEdge).transfer = s.transfer ∧
    (s.countEdge).pending = s.pending ∧ (s.countEdge).wheel.time = s.wheel.time ∧ (s.countEdge).wheel.slots = s.wheel.slots ∧
    (s.countEdge).wheel.overflow = s.wheel.overflow ∧ (s.countEdge).wheel.dueQueue = s.wheel.dueQueue ∧
    (s.countEdge).wheel.step = s.wheel.step ∧ (s.countEdge).host.device = s.host.device ∧ (s.countEdge).host.enable = s.host.enable ∧
    (s.countEdge).host.admin = s.host.admin ∧ (s.countEdge).host.resetCause = s.host.resetCause ∧
    (s.countEdge).host.fatalCause = s.host.fatalCause ∧ (s.countEdge).host.readData = s.host.readData :=
  by
  unfold State.countEdge; split <;> simp

@[simp] theorem State.countEdges_frame (n : Nat) (s : State) :
    (State.countEdges n s).fetcher = s.fetcher ∧ (State.countEdges n s).executor = s.executor ∧ (State.countEdges n s).table = s.table ∧
    (State.countEdges n s).expiry = s.expiry ∧ (State.countEdges n s).domains = s.domains ∧ (State.countEdges n s).transfer = s.transfer ∧
    (State.countEdges n s).pending = s.pending ∧ (State.countEdges n s).wheel.time = s.wheel.time ∧
    (State.countEdges n s).wheel.slots = s.wheel.slots ∧ (State.countEdges n s).wheel.overflow = s.wheel.overflow ∧
    (State.countEdges n s).wheel.dueQueue = s.wheel.dueQueue ∧ (State.countEdges n s).wheel.step = s.wheel.step ∧
    (State.countEdges n s).host.device = s.host.device ∧ (State.countEdges n s).host.enable = s.host.enable ∧
    (State.countEdges n s).host.admin = s.host.admin ∧ (State.countEdges n s).host.resetCause = s.host.resetCause ∧
    (State.countEdges n s).host.fatalCause = s.host.fatalCause ∧ (State.countEdges n s).host.readData = s.host.readData :=
  by
  induction n generalizing s with
  | zero => simp [State.countEdges]
  | succ n ih => simpa [State.countEdges] using ih s.countEdge

@[simp] theorem State.goodRunEvent_frame (s : State) (n : Nat) :
    (s.goodRunEvent n).fetcher = s.fetcher ∧ (s.goodRunEvent n).executor = s.executor ∧ (s.goodRunEvent n).table = s.table ∧
    (s.goodRunEvent n).expiry = s.expiry ∧ (s.goodRunEvent n).domains = s.domains ∧ (s.goodRunEvent n).transfer = s.transfer ∧
    (s.goodRunEvent n).pending = s.pending ∧ (s.goodRunEvent n).wheel.time = s.wheel.time ∧
    (s.goodRunEvent n).wheel.slots = s.wheel.slots ∧ (s.goodRunEvent n).wheel.overflow = s.wheel.overflow ∧
    (s.goodRunEvent n).wheel.dueQueue = s.wheel.dueQueue ∧ (s.goodRunEvent n).wheel.step = s.wheel.step ∧
    (s.goodRunEvent n).host.device = s.host.device ∧ (s.goodRunEvent n).host.enable = s.host.enable ∧
    (s.goodRunEvent n).host.admin = s.host.admin ∧ (s.goodRunEvent n).host.resetCause = s.host.resetCause ∧
    (s.goodRunEvent n).host.fatalCause = s.host.fatalCause ∧ (s.goodRunEvent n).host.readData = s.host.readData :=
  by
  unfold State.goodRunEvent; simp only; split <;> simp

@[simp] theorem State.plainEdge_frame (s : State) (n : Nat) :
    (s.plainEdge n).fetcher = s.fetcher ∧ (s.plainEdge n).executor = s.executor ∧ (s.plainEdge n).table = s.table ∧
    (s.plainEdge n).expiry = s.expiry ∧ (s.plainEdge n).domains = s.domains ∧ (s.plainEdge n).transfer = s.transfer ∧
    (s.plainEdge n).pending = s.pending ∧ (s.plainEdge n).wheel.time = s.wheel.time ∧ (s.plainEdge n).wheel.slots = s.wheel.slots ∧
    (s.plainEdge n).wheel.overflow = s.wheel.overflow ∧ (s.plainEdge n).wheel.dueQueue = s.wheel.dueQueue ∧
    (s.plainEdge n).wheel.step = s.wheel.step ∧ (s.plainEdge n).host.device = s.host.device ∧ (s.plainEdge n).host.enable = s.host.enable ∧
    (s.plainEdge n).host.admin = s.host.admin ∧ (s.plainEdge n).host.resetCause = s.host.resetCause ∧
    (s.plainEdge n).host.fatalCause = s.host.fatalCause ∧ (s.plainEdge n).host.readData = s.host.readData :=
  by
  unfold State.plainEdge; simp only; split <;> simp

@[simp] theorem State.replace_frame (s : State) (k : Nat) :
    (s.replace k).host = s.host ∧ (s.replace k).fetcher = s.fetcher ∧ (s.replace k).executor = s.executor ∧
    (s.replace k).expiry = s.expiry ∧ (s.replace k).timebase = s.timebase ∧ (s.replace k).poster = s.poster ∧
    (s.replace k).transfer = s.transfer ∧ (s.replace k).choices = s.choices ∧ (s.replace k).pending = s.pending ∧
    (s.replace k).table.freeList = s.table.freeList ∧ (s.replace k).table.reservation = s.table.reservation ∧
    (s.replace k).table.waiting = s.table.waiting ∧ (s.replace k).wheel.time = s.wheel.time ∧
    (s.replace k).wheel.overrun = s.wheel.overrun :=
  by
  unfold State.replace; split <;> simp

@[simp] theorem State.moveDue_frame (s : State) (k : Nat) (e : Entry) :
    (s.moveDue k e).host = s.host ∧ (s.moveDue k e).fetcher = s.fetcher ∧ (s.moveDue k e).executor = s.executor ∧
    (s.moveDue k e).expiry = s.expiry ∧ (s.moveDue k e).timebase = s.timebase ∧ (s.moveDue k e).poster = s.poster ∧
    (s.moveDue k e).transfer = s.transfer ∧ (s.moveDue k e).choices = s.choices ∧ (s.moveDue k e).pending = s.pending ∧
    (s.moveDue k e).table.freeList = s.table.freeList ∧ (s.moveDue k e).table.reservation = s.table.reservation ∧
    (s.moveDue k e).table.waiting = s.table.waiting ∧ (s.moveDue k e).wheel.time = s.wheel.time ∧
    (s.moveDue k e).wheel.overrun = s.wheel.overrun :=
  by
  simp [State.moveDue, Wheel.append]

@[simp] theorem State.discard_frame (s : State) (k : Nat) (e : Entry) :
    (s.discard k e).host = s.host ∧ (s.discard k e).fetcher = s.fetcher ∧ (s.discard k e).executor = s.executor ∧
    (s.discard k e).timebase = s.timebase ∧ (s.discard k e).transfer = s.transfer ∧ (s.discard k e).choices = s.choices ∧
    (s.discard k e).pending = s.pending ∧ (s.discard k e).table.reservation = s.table.reservation ∧
    (s.discard k e).table.waiting = s.table.waiting ∧ (s.discard k e).wheel.time = s.wheel.time ∧
    (s.discard k e).wheel.overrun = s.wheel.overrun ∧ (s.discard k e).poster.events = s.poster.events ∧
    (s.discard k e).poster.writes = s.poster.writes :=
  by
  simp [State.discard]

@[simp] theorem State.hold_frame (s : State) (k : Nat) (e : Entry) :
    (s.hold k e).host = s.host ∧ (s.hold k e).fetcher = s.fetcher ∧ (s.hold k e).executor = s.executor ∧ (s.hold k e).expiry = s.expiry ∧
    (s.hold k e).timebase = s.timebase ∧ (s.hold k e).poster = s.poster ∧ (s.hold k e).transfer = s.transfer ∧
    (s.hold k e).choices = s.choices ∧ (s.hold k e).pending = s.pending ∧ (s.hold k e).table.freeList = s.table.freeList ∧
    (s.hold k e).table.reservation = s.table.reservation ∧ (s.hold k e).table.waiting = s.table.waiting ∧
    (s.hold k e).wheel.time = s.wheel.time ∧ (s.hold k e).wheel.overrun = s.wheel.overrun :=
  by
  simp [State.hold]

@[simp] theorem State.fireKind_frame (s : State) (k : Nat) (e : Entry) :
    (s.fireKind k e).host = s.host ∧ (s.fireKind k e).fetcher = s.fetcher ∧ (s.fireKind k e).executor = s.executor ∧
    (s.fireKind k e).domains = s.domains ∧ (s.fireKind k e).timebase = s.timebase ∧ (s.fireKind k e).poster = s.poster ∧
    (s.fireKind k e).transfer = s.transfer ∧ (s.fireKind k e).choices = s.choices ∧ (s.fireKind k e).pending = s.pending ∧
    (s.fireKind k e).table.freeList = s.table.freeList ∧ (s.fireKind k e).table.reservation = s.table.reservation ∧
    (s.fireKind k e).table.waiting = s.table.waiting ∧ (s.fireKind k e).wheel.time = s.wheel.time ∧
    (s.fireKind k e).wheel.overrun = s.wheel.overrun ∧ (s.fireKind k e).wheel.step = s.wheel.step :=
  by
  unfold State.fireKind; split
  · simp
  · split <;> simp
  · simp

@[simp] theorem State.fire_frame (s : State) (k : Nat) (e : Entry) :
    (s.fire k e).fetcher = s.fetcher ∧ (s.fire k e).executor = s.executor ∧ (s.fire k e).timebase = s.timebase ∧
    (s.fire k e).transfer = s.transfer ∧ (s.fire k e).choices = s.choices ∧ (s.fire k e).pending = s.pending ∧
    (s.fire k e).host.device = s.host.device ∧ (s.fire k e).host.enable = s.host.enable ∧ (s.fire k e).host.admin = s.host.admin ∧
    (s.fire k e).host.resetCause = s.host.resetCause ∧ (s.fire k e).host.fatalCause = s.host.fatalCause ∧
    (s.fire k e).host.readData = s.host.readData ∧ (s.fire k e).table.reservation = s.table.reservation ∧
    (s.fire k e).table.waiting = s.table.waiting ∧ (s.fire k e).wheel.time = s.wheel.time ∧ (s.fire k e).wheel.overrun = s.wheel.overrun ∧
    (s.fire k e).poster.events = s.poster.events :=
  by
  unfold State.fire; simp only; split <;> simp

@[simp] theorem State.takeEntry_frame (s : State) (k : Nat) (e : Entry) :
    (s.takeEntry k e).fetcher = s.fetcher ∧ (s.takeEntry k e).executor = s.executor ∧ (s.takeEntry k e).timebase = s.timebase ∧
    (s.takeEntry k e).transfer = s.transfer ∧ (s.takeEntry k e).choices = s.choices ∧ (s.takeEntry k e).pending = s.pending ∧
    (s.takeEntry k e).host.device = s.host.device ∧ (s.takeEntry k e).host.enable = s.host.enable ∧
    (s.takeEntry k e).host.admin = s.host.admin ∧ (s.takeEntry k e).host.resetCause = s.host.resetCause ∧
    (s.takeEntry k e).host.fatalCause = s.host.fatalCause ∧ (s.takeEntry k e).host.readData = s.host.readData ∧
    (s.takeEntry k e).table.reservation = s.table.reservation ∧ (s.takeEntry k e).table.waiting = s.table.waiting ∧
    (s.takeEntry k e).wheel.time = s.wheel.time ∧ (s.takeEntry k e).wheel.overrun = s.wheel.overrun ∧
    (s.takeEntry k e).poster.events = s.poster.events :=
  by
  unfold State.takeEntry; split
  · simp
  · split <;> simp

@[simp] theorem State.clearMark_frame (s : State) (k : Nat) :
    (s.clearMark k).host = s.host ∧ (s.clearMark k).fetcher = s.fetcher ∧ (s.clearMark k).executor = s.executor ∧
    (s.clearMark k).wheel = s.wheel ∧ (s.clearMark k).expiry = s.expiry ∧ (s.clearMark k).domains = s.domains ∧
    (s.clearMark k).timebase = s.timebase ∧ (s.clearMark k).poster = s.poster ∧ (s.clearMark k).transfer = s.transfer ∧
    (s.clearMark k).choices = s.choices ∧ (s.clearMark k).pending = s.pending ∧ (s.clearMark k).table.freeList = s.table.freeList ∧
    (s.clearMark k).table.reservation = s.table.reservation ∧ (s.clearMark k).table.waiting = s.table.waiting :=
  by
  simp [State.clearMark]

@[simp] theorem State.writeEnded_frame (s : State) (q : DmaRequest) :
    (s.writeEnded q).host = s.host ∧ (s.writeEnded q).fetcher = s.fetcher ∧ (s.writeEnded q).executor = s.executor ∧
    (s.writeEnded q).wheel = s.wheel ∧ (s.writeEnded q).expiry = s.expiry ∧ (s.writeEnded q).domains = s.domains ∧
    (s.writeEnded q).timebase = s.timebase ∧ (s.writeEnded q).poster = s.poster ∧ (s.writeEnded q).transfer = s.transfer ∧
    (s.writeEnded q).choices = s.choices ∧ (s.writeEnded q).pending = s.pending ∧ (s.writeEnded q).table.freeList = s.table.freeList ∧
    (s.writeEnded q).table.reservation = s.table.reservation ∧ (s.writeEnded q).table.waiting = s.table.waiting :=
  by
  unfold State.writeEnded; split
  · split <;> simp
  · simp

@[simp] theorem State.undoFree_frame (s : State) (k : Nat) (m : PostingMark) (p : Option PendingExpiry) :
    (s.undoFree k m p).host = s.host ∧ (s.undoFree k m p).fetcher = s.fetcher ∧ (s.undoFree k m p).executor = s.executor ∧
    (s.undoFree k m p).wheel = s.wheel ∧ (s.undoFree k m p).expiry = s.expiry ∧ (s.undoFree k m p).timebase = s.timebase ∧
    (s.undoFree k m p).transfer = s.transfer ∧ (s.undoFree k m p).choices = s.choices ∧ (s.undoFree k m p).pending = s.pending ∧
    (s.undoFree k m p).table.reservation = s.table.reservation ∧ (s.undoFree k m p).table.waiting = s.table.waiting ∧
    (s.undoFree k m p).poster.events = s.poster.events ∧ (s.undoFree k m p).poster.writes = s.poster.writes :=
  by
  simp [State.undoFree]

@[simp] theorem State.restoreMarked_frame (s : State) (c : Fin 8) (i n k : Nat) (p : PendingExpiry) (m : PostingMark) :
    (s.restoreMarked c i n k p m).host = s.host ∧ (s.restoreMarked c i n k p m).fetcher = s.fetcher ∧
    (s.restoreMarked c i n k p m).executor = s.executor ∧ (s.restoreMarked c i n k p m).wheel = s.wheel ∧
    (s.restoreMarked c i n k p m).expiry = s.expiry ∧ (s.restoreMarked c i n k p m).timebase = s.timebase ∧
    (s.restoreMarked c i n k p m).transfer = s.transfer ∧ (s.restoreMarked c i n k p m).choices = s.choices ∧
    (s.restoreMarked c i n k p m).pending = s.pending ∧ (s.restoreMarked c i n k p m).table.reservation = s.table.reservation ∧
    (s.restoreMarked c i n k p m).table.waiting = s.table.waiting ∧ (s.restoreMarked c i n k p m).poster.events = s.poster.events ∧
    (s.restoreMarked c i n k p m).poster.writes = s.poster.writes :=
  by
  unfold State.restoreMarked; simp only; split
  · split <;> simp
  · simp

@[simp] theorem State.restoreInUse_frame (s : State) (k : Nat) (p : PendingExpiry) (e : Entry) :
    (s.restoreInUse k p e).host = s.host ∧ (s.restoreInUse k p e).fetcher = s.fetcher ∧
    (s.restoreInUse k p e).executor = s.executor ∧ (s.restoreInUse k p e).wheel = s.wheel ∧
    (s.restoreInUse k p e).expiry = s.expiry ∧ (s.restoreInUse k p e).domains = s.domains ∧
    (s.restoreInUse k p e).timebase = s.timebase ∧ (s.restoreInUse k p e).transfer = s.transfer ∧
    (s.restoreInUse k p e).choices = s.choices ∧ (s.restoreInUse k p e).pending = s.pending ∧
    (s.restoreInUse k p e).table.freeList = s.table.freeList ∧ (s.restoreInUse k p e).table.reservation = s.table.reservation ∧
    (s.restoreInUse k p e).table.waiting = s.table.waiting ∧ (s.restoreInUse k p e).poster.events = s.poster.events ∧
    (s.restoreInUse k p e).poster.writes = s.poster.writes :=
  by
  simp [State.restoreInUse]

@[simp] theorem State.restoreFires_frame (s : State) (c : Fin 8) (i n k g : Nat) (p : PendingExpiry) :
    (s.restoreFires c i n k g p).host = s.host ∧ (s.restoreFires c i n k g p).fetcher = s.fetcher ∧
    (s.restoreFires c i n k g p).executor = s.executor ∧ (s.restoreFires c i n k g p).wheel = s.wheel ∧
    (s.restoreFires c i n k g p).expiry = s.expiry ∧ (s.restoreFires c i n k g p).timebase = s.timebase ∧
    (s.restoreFires c i n k g p).transfer = s.transfer ∧ (s.restoreFires c i n k g p).choices = s.choices ∧
    (s.restoreFires c i n k g p).pending = s.pending ∧ (s.restoreFires c i n k g p).table.reservation = s.table.reservation ∧
    (s.restoreFires c i n k g p).table.waiting = s.table.waiting ∧ (s.restoreFires c i n k g p).poster.events = s.poster.events ∧
    (s.restoreFires c i n k g p).poster.writes = s.poster.writes :=
  by
  unfold State.restoreFires; split
  · split <;> simp
  · split
    · split <;> simp
    · simp

@[simp] theorem State.fatal_frame (s : State) (c : FatalCause) :
    (s.fatal c).fetcher = s.fetcher ∧ (s.fatal c).executor = s.executor ∧ (s.fatal c).table = s.table ∧ (s.fatal c).wheel = s.wheel ∧
    (s.fatal c).expiry = s.expiry ∧ (s.fatal c).domains = s.domains ∧ (s.fatal c).timebase = s.timebase ∧ (s.fatal c).poster = s.poster ∧
    (s.fatal c).transfer = s.transfer ∧ (s.fatal c).choices = s.choices ∧ (s.fatal c).pending = s.pending ∧
    (s.fatal c).host.dma = s.host.dma ∧ (s.fatal c).host.enable = s.host.enable ∧ (s.fatal c).host.admin = s.host.admin ∧
    (s.fatal c).host.resetCause = s.host.resetCause ∧ (s.fatal c).host.readData = s.host.readData :=
  by
  unfold State.fatal; split <;> simp

@[simp] theorem State.ringWriteFailed_frame (s : State) (c : Fin 8) :
    (s.ringWriteFailed c).host = s.host ∧ (s.ringWriteFailed c).fetcher = s.fetcher ∧ (s.ringWriteFailed c).executor = s.executor ∧
    (s.ringWriteFailed c).table = s.table ∧ (s.ringWriteFailed c).wheel = s.wheel ∧ (s.ringWriteFailed c).expiry = s.expiry ∧
    (s.ringWriteFailed c).domains = s.domains ∧ (s.ringWriteFailed c).timebase = s.timebase ∧ (s.ringWriteFailed c).transfer = s.transfer ∧
    (s.ringWriteFailed c).choices = s.choices ∧ (s.ringWriteFailed c).pending = s.pending ∧
    (s.ringWriteFailed c).poster.writes = s.poster.writes :=
  by
  simp [State.ringWriteFailed]

@[simp] theorem State.writeFailed_frame (s : State) (q : DmaRequest) :
    (s.writeFailed q).fetcher = s.fetcher ∧ (s.writeFailed q).executor = s.executor ∧ (s.writeFailed q).wheel = s.wheel ∧
    (s.writeFailed q).expiry = s.expiry ∧ (s.writeFailed q).timebase = s.timebase ∧ (s.writeFailed q).transfer = s.transfer ∧
    (s.writeFailed q).choices = s.choices ∧ (s.writeFailed q).pending = s.pending ∧
    (s.writeFailed q).table.reservation = s.table.reservation ∧ (s.writeFailed q).table.waiting = s.table.waiting ∧
    (s.writeFailed q).poster.writes = s.poster.writes ∧ (s.writeFailed q).host.dma = s.host.dma ∧
    (s.writeFailed q).host.enable = s.host.enable ∧ (s.writeFailed q).host.admin = s.host.admin ∧
    (s.writeFailed q).host.resetCause = s.host.resetCause ∧ (s.writeFailed q).host.readData = s.host.readData :=
  by
  unfold State.writeFailed; split
  · split
    · simp
    · split <;> simp
  · split <;> simp
  · simp

@[simp] theorem State.writeTail_frame (s : State) (i : Fin 8) (v : Nat) :
    (s.writeTail i v).executor = s.executor ∧ (s.writeTail i v).table = s.table ∧ (s.writeTail i v).wheel = s.wheel ∧
    (s.writeTail i v).expiry = s.expiry ∧ (s.writeTail i v).domains = s.domains ∧ (s.writeTail i v).timebase = s.timebase ∧
    (s.writeTail i v).transfer = s.transfer ∧ (s.writeTail i v).choices = s.choices ∧ (s.writeTail i v).pending = s.pending ∧
    (s.writeTail i v).fetcher.path = s.fetcher.path ∧ (s.writeTail i v).fetcher.grant = s.fetcher.grant ∧
    (s.writeTail i v).fetcher.used = s.fetcher.used ∧ (s.writeTail i v).poster.rings = s.poster.rings ∧
    (s.writeTail i v).poster.writes = s.poster.writes ∧ (s.writeTail i v).host.dma = s.host.dma ∧
    (s.writeTail i v).host.enable = s.host.enable ∧ (s.writeTail i v).host.admin = s.host.admin ∧
    (s.writeTail i v).host.resetCause = s.host.resetCause ∧ (s.writeTail i v).host.readData = s.host.readData :=
  by
  unfold State.writeTail; split
  · split
    · simp
    · split <;> simp
  · simp

@[simp] theorem State.startFetch_frame (s : State) (i : Fin 8) :
    (s.startFetch i).executor = s.executor ∧ (s.startFetch i).table = s.table ∧ (s.startFetch i).wheel = s.wheel ∧
    (s.startFetch i).expiry = s.expiry ∧ (s.startFetch i).domains = s.domains ∧ (s.startFetch i).timebase = s.timebase ∧
    (s.startFetch i).transfer = s.transfer ∧ (s.startFetch i).choices = s.choices ∧ (s.startFetch i).pending = s.pending ∧
    (s.startFetch i).fetcher.rings = s.fetcher.rings ∧ (s.startFetch i).fetcher.grant = s.fetcher.grant ∧
    (s.startFetch i).fetcher.used = s.fetcher.used ∧ (s.startFetch i).host.device = s.host.device ∧
    (s.startFetch i).host.enable = s.host.enable ∧ (s.startFetch i).host.admin = s.host.admin ∧
    (s.startFetch i).host.resetCause = s.host.resetCause ∧ (s.startFetch i).host.fatalCause = s.host.fatalCause ∧
    (s.startFetch i).host.readData = s.host.readData ∧ (s.startFetch i).poster.events = s.poster.events ∧
    (s.startFetch i).poster.writes = s.poster.writes :=
  by
  simp [State.startFetch]

@[simp] theorem State.readFailed_frame (s : State) (f : Fetch) :
    (s.readFailed f).table = s.table ∧ (s.readFailed f).wheel = s.wheel ∧ (s.readFailed f).expiry = s.expiry ∧
    (s.readFailed f).domains = s.domains ∧ (s.readFailed f).timebase = s.timebase ∧ (s.readFailed f).transfer = s.transfer ∧
    (s.readFailed f).choices = s.choices ∧ (s.readFailed f).pending = s.pending ∧ (s.readFailed f).fetcher.path = s.fetcher.path ∧
    (s.readFailed f).fetcher.grant = s.fetcher.grant ∧ (s.readFailed f).fetcher.used = s.fetcher.used ∧
    (s.readFailed f).host.device = s.host.device ∧ (s.readFailed f).host.enable = s.host.enable ∧
    (s.readFailed f).host.admin = s.host.admin ∧ (s.readFailed f).host.resetCause = s.host.resetCause ∧
    (s.readFailed f).host.fatalCause = s.host.fatalCause ∧ (s.readFailed f).host.readData = s.host.readData :=
  by
  simp [State.readFailed]

@[simp] theorem State.writeHead_frame (s : State) (c : Fin 8) (h : Nat) :
    (s.writeHead c h).fetcher = s.fetcher ∧ (s.writeHead c h).executor = s.executor ∧ (s.writeHead c h).table = s.table ∧
    (s.writeHead c h).wheel = s.wheel ∧ (s.writeHead c h).expiry = s.expiry ∧ (s.writeHead c h).domains = s.domains ∧
    (s.writeHead c h).timebase = s.timebase ∧ (s.writeHead c h).transfer = s.transfer ∧ (s.writeHead c h).choices = s.choices ∧
    (s.writeHead c h).pending = s.pending ∧ (s.writeHead c h).poster.writes = s.poster.writes ∧ (s.writeHead c h).host.dma = s.host.dma ∧
    (s.writeHead c h).host.enable = s.host.enable ∧ (s.writeHead c h).host.admin = s.host.admin ∧
    (s.writeHead c h).host.resetCause = s.host.resetCause ∧ (s.writeHead c h).host.readData = s.host.readData :=
  by
  unfold State.writeHead; simp only; split
  · split
    · simp
    · split
      · simp
      · split <;> simp
  · simp

@[simp] theorem State.enableCheck_frame (s : State) :
    (s.enableCheck).executor = s.executor ∧ (s.enableCheck).table = s.table ∧ (s.enableCheck).wheel = s.wheel ∧
    (s.enableCheck).expiry = s.expiry ∧ (s.enableCheck).domains = s.domains ∧ (s.enableCheck).timebase = s.timebase ∧
    (s.enableCheck).transfer = s.transfer ∧ (s.enableCheck).choices = s.choices ∧ (s.enableCheck).pending = s.pending ∧
    (s.enableCheck).fetcher.path = s.fetcher.path ∧ (s.enableCheck).fetcher.grant = s.fetcher.grant ∧
    (s.enableCheck).fetcher.used = s.fetcher.used ∧ (s.enableCheck).fetcher.grantWeight = s.fetcher.grantWeight ∧ (s.enableCheck).poster.events = s.poster.events ∧
    (s.enableCheck).poster.writes = s.poster.writes ∧ (s.enableCheck).host.dma = s.host.dma ∧ (s.enableCheck).host.enable = s.host.enable ∧
    (s.enableCheck).host.admin = s.host.admin ∧ (s.enableCheck).host.resetCause = s.host.resetCause ∧
    (s.enableCheck).host.readData = s.host.readData :=
  by
  unfold State.enableCheck; split <;> simp

@[simp] theorem State.issue_frame (s : State) (q : Job → DmaRequest) :
    (s.issue q).fetcher = s.fetcher ∧ (s.issue q).executor = s.executor ∧ (s.issue q).table = s.table ∧ (s.issue q).wheel = s.wheel ∧
    (s.issue q).expiry = s.expiry ∧ (s.issue q).domains = s.domains ∧ (s.issue q).timebase = s.timebase ∧ (s.issue q).poster = s.poster ∧
    (s.issue q).transfer = s.transfer ∧ (s.issue q).choices = s.choices ∧ (s.issue q).pending = s.pending ∧
    (s.issue q).host.device = s.host.device ∧ (s.issue q).host.enable = s.host.enable ∧ (s.issue q).host.admin = s.host.admin ∧
    (s.issue q).host.resetCause = s.host.resetCause ∧ (s.issue q).host.fatalCause = s.host.fatalCause ∧
    (s.issue q).host.readData = s.host.readData :=
  by
  unfold State.issue; split <;> simp

@[simp] theorem State.updateJob_frame (s : State) (f : Job → Job) :
    (s.updateJob f).host = s.host ∧ (s.updateJob f).fetcher = s.fetcher ∧ (s.updateJob f).executor = s.executor ∧
    (s.updateJob f).table = s.table ∧ (s.updateJob f).wheel = s.wheel ∧ (s.updateJob f).expiry = s.expiry ∧
    (s.updateJob f).domains = s.domains ∧ (s.updateJob f).timebase = s.timebase ∧ (s.updateJob f).poster = s.poster ∧
    (s.updateJob f).choices = s.choices ∧ (s.updateJob f).pending = s.pending ∧ (s.updateJob f).transfer.job = s.transfer.job.map f :=
  by
  simp [State.updateJob]

@[simp] theorem State.endJob_frame (s : State) (j : Job) (st : Status) (n : Nat) (w : DWord) :
    (s.endJob j st n w).fetcher = s.fetcher ∧ (s.endJob j st n w).executor = s.executor ∧ (s.endJob j st n w).wheel = s.wheel ∧
    (s.endJob j st n w).expiry = s.expiry ∧ (s.endJob j st n w).timebase = s.timebase ∧ (s.endJob j st n w).choices = s.choices ∧
    (s.endJob j st n w).pending = s.pending ∧ (s.endJob j st n w).transfer.job = none ∧ (s.endJob j st n w).table.rows = s.table.rows ∧
    (s.endJob j st n w).table.freeList = s.table.freeList ∧ (s.endJob j st n w).table.reservation = s.table.reservation ∧
    (s.endJob j st n w).host.device = s.host.device ∧ (s.endJob j st n w).host.enable = s.host.enable ∧
    (s.endJob j st n w).host.admin = s.host.admin ∧ (s.endJob j st n w).host.resetCause = s.host.resetCause ∧
    (s.endJob j st n w).host.fatalCause = s.host.fatalCause ∧ (s.endJob j st n w).host.readData = s.host.readData ∧
    (s.endJob j st n w).poster.events = s.poster.events :=
  by
  simp [State.endJob]

@[simp] theorem State.rollback_frame (s : State) (d : Fin 64) :
    (s.rollback d).host = s.host ∧ (s.rollback d).fetcher = s.fetcher ∧ (s.rollback d).executor = s.executor ∧
    (s.rollback d).timebase = s.timebase ∧ (s.rollback d).transfer = s.transfer ∧ (s.rollback d).pending = s.pending ∧
    (s.rollback d).wheel.time = s.wheel.time ∧ (s.rollback d).wheel.overrun = s.wheel.overrun ∧
    (s.rollback d).poster.events = s.poster.events ∧ (s.rollback d).poster.writes = s.poster.writes ∧
    (s.rollback d).table.reservation = 0 ∧ (s.rollback d).table.waiting = s.table.waiting :=
  by
  simp [State.rollback]

@[simp] theorem State.failJob_frame (s : State) (j : Job) (st : Status) :
    (s.failJob j st).fetcher = s.fetcher ∧ (s.failJob j st).executor = s.executor ∧ (s.failJob j st).timebase = s.timebase ∧
    (s.failJob j st).pending = s.pending ∧ (s.failJob j st).transfer.job = none ∧ (s.failJob j st).host.device = s.host.device ∧
    (s.failJob j st).host.enable = s.host.enable ∧ (s.failJob j st).host.admin = s.host.admin ∧
    (s.failJob j st).host.resetCause = s.host.resetCause ∧ (s.failJob j st).host.fatalCause = s.host.fatalCause ∧
    (s.failJob j st).host.readData = s.host.readData ∧ (s.failJob j st).poster.events = s.poster.events ∧
    (s.failJob j st).wheel.time = s.wheel.time ∧ (s.failJob j st).wheel.overrun = s.wheel.overrun :=
  by
  unfold State.failJob; split <;> simp

@[simp] theorem State.beginTransfers_frame (s : State) :
    (s.beginTransfers).fetcher = s.fetcher ∧ (s.beginTransfers).executor = s.executor ∧ (s.beginTransfers).table = s.table ∧
    (s.beginTransfers).wheel = s.wheel ∧ (s.beginTransfers).expiry = s.expiry ∧ (s.beginTransfers).domains = s.domains ∧
    (s.beginTransfers).timebase = s.timebase ∧ (s.beginTransfers).poster = s.poster ∧ (s.beginTransfers).choices = s.choices ∧
    (s.beginTransfers).pending = s.pending ∧ (s.beginTransfers).transfer.job = s.transfer.job.map Job.begun ∧
    (s.beginTransfers).host.device = s.host.device ∧ (s.beginTransfers).host.enable = s.host.enable ∧
    (s.beginTransfers).host.admin = s.host.admin ∧ (s.beginTransfers).host.resetCause = s.host.resetCause ∧
    (s.beginTransfers).host.fatalCause = s.host.fatalCause ∧ (s.beginTransfers).host.readData = s.host.readData :=
  by
  simp [State.beginTransfers]

@[simp] theorem State.startJob_frame (s : State) (j : Job) (b : TransferBusy) :
    (s.startJob j b).fetcher = s.fetcher ∧ (s.startJob j b).executor = s.executor ∧ (s.startJob j b).table = s.table ∧
    (s.startJob j b).wheel = s.wheel ∧ (s.startJob j b).expiry = s.expiry ∧ (s.startJob j b).timebase = s.timebase ∧
    (s.startJob j b).poster = s.poster ∧ (s.startJob j b).choices = s.choices ∧ (s.startJob j b).pending = s.pending ∧
    (s.startJob j b).host.device = s.host.device ∧ (s.startJob j b).host.enable = s.host.enable ∧
    (s.startJob j b).host.admin = s.host.admin ∧ (s.startJob j b).host.resetCause = s.host.resetCause ∧
    (s.startJob j b).host.fatalCause = s.host.fatalCause ∧ (s.startJob j b).host.readData = s.host.readData :=
  by
  unfold State.startJob; simp only; split <;> simp

@[simp] theorem State.visit_frame (s : State) (j : Job) :
    (s.visit j).fetcher = s.fetcher ∧ (s.visit j).executor = s.executor ∧ (s.visit j).table = s.table ∧ (s.visit j).wheel = s.wheel ∧
    (s.visit j).expiry = s.expiry ∧ (s.visit j).domains = s.domains ∧ (s.visit j).timebase = s.timebase ∧ (s.visit j).poster = s.poster ∧
    (s.visit j).choices = s.choices ∧ (s.visit j).pending = s.pending ∧ (s.visit j).host.device = s.host.device ∧
    (s.visit j).host.enable = s.host.enable ∧ (s.visit j).host.admin = s.host.admin ∧ (s.visit j).host.resetCause = s.host.resetCause ∧
    (s.visit j).host.fatalCause = s.host.fatalCause ∧ (s.visit j).host.readData = s.host.readData :=
  by
  unfold State.visit; split
  · simp
  · simp only; split <;> simp

@[simp] theorem State.trailerIfLast_frame (s : State) (j : Job) :
    (s.trailerIfLast j).fetcher = s.fetcher ∧ (s.trailerIfLast j).executor = s.executor ∧ (s.trailerIfLast j).table = s.table ∧
    (s.trailerIfLast j).wheel = s.wheel ∧ (s.trailerIfLast j).expiry = s.expiry ∧ (s.trailerIfLast j).domains = s.domains ∧
    (s.trailerIfLast j).timebase = s.timebase ∧ (s.trailerIfLast j).poster = s.poster ∧ (s.trailerIfLast j).transfer = s.transfer ∧
    (s.trailerIfLast j).choices = s.choices ∧ (s.trailerIfLast j).pending = s.pending ∧ (s.trailerIfLast j).host.device = s.host.device ∧
    (s.trailerIfLast j).host.enable = s.host.enable ∧ (s.trailerIfLast j).host.admin = s.host.admin ∧
    (s.trailerIfLast j).host.resetCause = s.host.resetCause ∧ (s.trailerIfLast j).host.fatalCause = s.host.fatalCause ∧
    (s.trailerIfLast j).host.readData = s.host.readData :=
  by
  unfold State.trailerIfLast; split <;> simp

@[simp] theorem State.jobWriteDone_frame (s : State) (j : Job) (i : TransferItem) :
    (s.jobWriteDone j i).fetcher = s.fetcher ∧ (s.jobWriteDone j i).executor = s.executor ∧ (s.jobWriteDone j i).wheel = s.wheel ∧
    (s.jobWriteDone j i).expiry = s.expiry ∧ (s.jobWriteDone j i).timebase = s.timebase ∧ (s.jobWriteDone j i).choices = s.choices ∧
    (s.jobWriteDone j i).pending = s.pending ∧ (s.jobWriteDone j i).table.rows = s.table.rows ∧
    (s.jobWriteDone j i).table.freeList = s.table.freeList ∧ (s.jobWriteDone j i).table.reservation = s.table.reservation ∧
    (s.jobWriteDone j i).host.device = s.host.device ∧ (s.jobWriteDone j i).host.enable = s.host.enable ∧
    (s.jobWriteDone j i).host.admin = s.host.admin ∧ (s.jobWriteDone j i).host.resetCause = s.host.resetCause ∧
    (s.jobWriteDone j i).host.fatalCause = s.host.fatalCause ∧ (s.jobWriteDone j i).host.readData = s.host.readData ∧
    (s.jobWriteDone j i).poster.events = s.poster.events :=
  by
  unfold State.jobWriteDone; split
  · simp
  · simp
  · split <;> simp
  · simp

@[simp] theorem State.orphanEnded_frame (s : State) :
    (s.orphanEnded).fetcher = s.fetcher ∧ (s.orphanEnded).executor = s.executor ∧ (s.orphanEnded).table = s.table ∧
    (s.orphanEnded).wheel = s.wheel ∧ (s.orphanEnded).expiry = s.expiry ∧ (s.orphanEnded).domains = s.domains ∧
    (s.orphanEnded).timebase = s.timebase ∧ (s.orphanEnded).poster = s.poster ∧
    (s.orphanEnded).transfer.job = s.transfer.job.map Job.begun ∧
    (s.orphanEnded).choices = s.choices ∧ (s.orphanEnded).pending = s.pending ∧ (s.orphanEnded).host.device = s.host.device ∧
    (s.orphanEnded).host.enable = s.host.enable ∧ (s.orphanEnded).host.admin = s.host.admin ∧
    (s.orphanEnded).host.resetCause = s.host.resetCause ∧ (s.orphanEnded).host.fatalCause = s.host.fatalCause ∧
    (s.orphanEnded).host.readData = s.host.readData :=
  by
  simp [State.orphanEnded]

@[simp] theorem State.waitCreation_frame (s : State) :
    (s.waitCreation).host = s.host ∧ (s.waitCreation).fetcher = s.fetcher ∧ (s.waitCreation).executor = s.executor ∧
    (s.waitCreation).wheel = s.wheel ∧ (s.waitCreation).expiry = s.expiry ∧ (s.waitCreation).domains = s.domains ∧
    (s.waitCreation).timebase = s.timebase ∧ (s.waitCreation).poster = s.poster ∧ (s.waitCreation).transfer = s.transfer ∧
    (s.waitCreation).choices = s.choices ∧ (s.waitCreation).pending = s.pending ∧ (s.waitCreation).table.rows = s.table.rows ∧
    (s.waitCreation).table.freeList = s.table.freeList ∧ (s.waitCreation).table.reservation = s.table.reservation :=
  by
  unfold State.waitCreation; split <;> simp

@[simp] theorem State.verifyHeader_frame (s : State) (j : Job) (h : RecordBits) :
    (s.verifyHeader j h).fetcher = s.fetcher ∧ (s.verifyHeader j h).executor = s.executor ∧ (s.verifyHeader j h).wheel = s.wheel ∧
    (s.verifyHeader j h).expiry = s.expiry ∧ (s.verifyHeader j h).timebase = s.timebase ∧ (s.verifyHeader j h).choices = s.choices ∧
    (s.verifyHeader j h).pending = s.pending ∧ (s.verifyHeader j h).table.rows = s.table.rows ∧
    (s.verifyHeader j h).table.freeList = s.table.freeList ∧ (s.verifyHeader j h).table.reservation = s.table.reservation ∧
    (s.verifyHeader j h).host.device = s.host.device ∧ (s.verifyHeader j h).host.enable = s.host.enable ∧
    (s.verifyHeader j h).host.admin = s.host.admin ∧ (s.verifyHeader j h).host.resetCause = s.host.resetCause ∧
    (s.verifyHeader j h).host.fatalCause = s.host.fatalCause ∧ (s.verifyHeader j h).host.readData = s.host.readData ∧
    (s.verifyHeader j h).poster.events = s.poster.events :=
  by
  unfold State.verifyHeader; split <;> simp

@[simp] theorem State.reserve_frame (s : State) (j : Job) :
    (s.reserve j).fetcher = s.fetcher ∧ (s.reserve j).executor = s.executor ∧ (s.reserve j).wheel = s.wheel ∧
    (s.reserve j).expiry = s.expiry ∧ (s.reserve j).timebase = s.timebase ∧ (s.reserve j).poster = s.poster ∧
    (s.reserve j).choices = s.choices ∧ (s.reserve j).pending = s.pending ∧ (s.reserve j).table.rows = s.table.rows ∧
    (s.reserve j).table.freeList = s.table.freeList ∧ (s.reserve j).table.waiting = s.table.waiting ∧
    (s.reserve j).host.device = s.host.device ∧ (s.reserve j).host.enable = s.host.enable ∧ (s.reserve j).host.admin = s.host.admin ∧
    (s.reserve j).host.resetCause = s.host.resetCause ∧ (s.reserve j).host.fatalCause = s.host.fatalCause ∧
    (s.reserve j).host.readData = s.host.readData :=
  by
  simp [State.reserve]

@[simp] theorem State.verifyTrailer_frame (s : State) (j : Job) (h : RecordBits) :
    (s.verifyTrailer j h).fetcher = s.fetcher ∧ (s.verifyTrailer j h).executor = s.executor ∧ (s.verifyTrailer j h).wheel = s.wheel ∧
    (s.verifyTrailer j h).expiry = s.expiry ∧ (s.verifyTrailer j h).timebase = s.timebase ∧ (s.verifyTrailer j h).choices = s.choices ∧
    (s.verifyTrailer j h).pending = s.pending ∧ (s.verifyTrailer j h).table.rows = s.table.rows ∧
    (s.verifyTrailer j h).table.freeList = s.table.freeList ∧ (s.verifyTrailer j h).host.device = s.host.device ∧
    (s.verifyTrailer j h).host.enable = s.host.enable ∧ (s.verifyTrailer j h).host.admin = s.host.admin ∧
    (s.verifyTrailer j h).host.resetCause = s.host.resetCause ∧ (s.verifyTrailer j h).host.fatalCause = s.host.fatalCause ∧
    (s.verifyTrailer j h).host.readData = s.host.readData ∧ (s.verifyTrailer j h).poster.events = s.poster.events :=
  by
  unfold State.verifyTrailer; split <;> simp

@[simp] theorem State.createRecord_frame (s : State) (j : Job) (h : RecordBits) :
    (s.createRecord j h).fetcher = s.fetcher ∧ (s.createRecord j h).executor = s.executor ∧ (s.createRecord j h).timebase = s.timebase ∧
    (s.createRecord j h).pending = s.pending ∧ (s.createRecord j h).host.device = s.host.device ∧
    (s.createRecord j h).host.enable = s.host.enable ∧ (s.createRecord j h).host.admin = s.host.admin ∧
    (s.createRecord j h).host.resetCause = s.host.resetCause ∧ (s.createRecord j h).host.fatalCause = s.host.fatalCause ∧
    (s.createRecord j h).host.readData = s.host.readData ∧ (s.createRecord j h).poster.events = s.poster.events ∧
    (s.createRecord j h).wheel.time = s.wheel.time ∧ (s.createRecord j h).wheel.overrun = s.wheel.overrun :=
  by
  unfold State.createRecord; split
  · simp only; split <;> simp
  · simp

@[simp] theorem State.clearImportMarks_frame (s : State) :
    (s.clearImportMarks).host = s.host ∧ (s.clearImportMarks).fetcher = s.fetcher ∧ (s.clearImportMarks).executor = s.executor ∧
    (s.clearImportMarks).wheel = s.wheel ∧ (s.clearImportMarks).expiry = s.expiry ∧ (s.clearImportMarks).domains = s.domains ∧
    (s.clearImportMarks).timebase = s.timebase ∧ (s.clearImportMarks).poster = s.poster ∧ (s.clearImportMarks).transfer = s.transfer ∧
    (s.clearImportMarks).choices = s.choices ∧ (s.clearImportMarks).pending = s.pending ∧
    (s.clearImportMarks).table.freeList = s.table.freeList ∧ (s.clearImportMarks).table.reservation = s.table.reservation ∧
    (s.clearImportMarks).table.waiting = s.table.waiting :=
  by
  simp [State.clearImportMarks]

@[simp] theorem State.createTrailer_frame (s : State) (j : Job) :
    (s.createTrailer j).fetcher = s.fetcher ∧ (s.createTrailer j).executor = s.executor ∧ (s.createTrailer j).timebase = s.timebase ∧
    (s.createTrailer j).pending = s.pending ∧ (s.createTrailer j).host.device = s.host.device ∧
    (s.createTrailer j).host.enable = s.host.enable ∧ (s.createTrailer j).host.admin = s.host.admin ∧
    (s.createTrailer j).host.resetCause = s.host.resetCause ∧ (s.createTrailer j).host.fatalCause = s.host.fatalCause ∧
    (s.createTrailer j).host.readData = s.host.readData ∧ (s.createTrailer j).poster.events = s.poster.events ∧
    (s.createTrailer j).wheel.time = s.wheel.time ∧ (s.createTrailer j).wheel.overrun = s.wheel.overrun :=
  by
  unfold State.createTrailer; split <;> simp

@[simp] theorem State.jobReadDone_frame (s : State) (j : Job) (i : TransferItem) (h : RecordBits) :
    (s.jobReadDone j i h).fetcher = s.fetcher ∧ (s.jobReadDone j i h).executor = s.executor ∧ (s.jobReadDone j i h).timebase = s.timebase ∧
    (s.jobReadDone j i h).pending = s.pending ∧ (s.jobReadDone j i h).host.device = s.host.device ∧
    (s.jobReadDone j i h).host.enable = s.host.enable ∧ (s.jobReadDone j i h).host.admin = s.host.admin ∧
    (s.jobReadDone j i h).host.resetCause = s.host.resetCause ∧ (s.jobReadDone j i h).host.fatalCause = s.host.fatalCause ∧
    (s.jobReadDone j i h).host.readData = s.host.readData ∧ (s.jobReadDone j i h).poster.events = s.poster.events ∧
    (s.jobReadDone j i h).wheel.time = s.wheel.time ∧ (s.jobReadDone j i h).wheel.overrun = s.wheel.overrun :=
  by
  unfold State.jobReadDone; split <;> simp

@[simp] theorem State.putImported_frame (s : State) (k n : Nat) (e : Entry) :
    (s.putImported k n e).host = s.host ∧ (s.putImported k n e).fetcher = s.fetcher ∧ (s.putImported k n e).executor = s.executor ∧
    (s.putImported k n e).timebase = s.timebase ∧ (s.putImported k n e).poster = s.poster ∧ (s.putImported k n e).transfer = s.transfer ∧
    (s.putImported k n e).choices = s.choices ∧ (s.putImported k n e).pending = s.pending ∧
    (s.putImported k n e).table.freeList = s.table.freeList ∧ (s.putImported k n e).table.reservation = s.table.reservation ∧
    (s.putImported k n e).table.waiting = s.table.waiting ∧ (s.putImported k n e).wheel.time = s.wheel.time ∧
    (s.putImported k n e).wheel.overrun = s.wheel.overrun ∧ (s.putImported k n e).wheel.step = s.wheel.step :=
  by
  unfold State.putImported; split
  · simp
  · split <;> simp

@[simp] theorem State.create_frame (s : State) (j : Job) (r : RecordBits) :
    (s.create j r).fetcher = s.fetcher ∧ (s.create j r).executor = s.executor ∧ (s.create j r).timebase = s.timebase ∧
    (s.create j r).choices = s.choices ∧ (s.create j r).pending = s.pending ∧ (s.create j r).host.device = s.host.device ∧
    (s.create j r).host.enable = s.host.enable ∧ (s.create j r).host.admin = s.host.admin ∧
    (s.create j r).host.resetCause = s.host.resetCause ∧ (s.create j r).host.fatalCause = s.host.fatalCause ∧
    (s.create j r).host.readData = s.host.readData ∧ (s.create j r).poster.events = s.poster.events ∧
    (s.create j r).poster.writes = s.poster.writes ∧ (s.create j r).wheel.time = s.wheel.time ∧
    (s.create j r).wheel.overrun = s.wheel.overrun ∧ (s.create j r).wheel.step = s.wheel.step :=
  by
  simp [State.create]

@[simp] theorem State.setPath_frame (s : State) (p : FetchPath) :
    (s.setPath p).host = s.host ∧ (s.setPath p).executor = s.executor ∧ (s.setPath p).table = s.table ∧ (s.setPath p).wheel = s.wheel ∧
    (s.setPath p).expiry = s.expiry ∧ (s.setPath p).domains = s.domains ∧ (s.setPath p).timebase = s.timebase ∧
    (s.setPath p).poster = s.poster ∧ (s.setPath p).transfer = s.transfer ∧ (s.setPath p).choices = s.choices ∧
    (s.setPath p).pending = s.pending ∧ (s.setPath p).fetcher = { s.fetcher with path := p } :=
  by
  simp [State.setPath]

@[simp] theorem State.setPath_accessors (s : State) (p : FetchPath) :
    (∀ j, (s.setPath p).rowAt j = s.rowAt j) ∧ (∀ j, (s.setPath p).domain j = s.domain j) ∧ (∀ j, (s.setPath p).sr j = s.sr j) ∧
    (∀ j, (s.setPath p).cr j = s.cr j) ∧ (s.setPath p).ready = s.ready :=
  ⟨fun _ => rfl, fun _ => rfl, fun _ => rfl, fun _ => rfl, rfl⟩

/-- R169: what the taking of a whole completion queue leaves. -/
@[simp] theorem takeQueue_frame (l : List Completion) (c : Fin 8) (s : State) :
    (l.foldl (fun s q => s.takeForWriting c true q .completion) s).fetcher = s.fetcher ∧
    (l.foldl (fun s q => s.takeForWriting c true q .completion) s).executor = s.executor ∧
    (l.foldl (fun s q => s.takeForWriting c true q .completion) s).table = s.table ∧
    (l.foldl (fun s q => s.takeForWriting c true q .completion) s).wheel = s.wheel ∧
    (l.foldl (fun s q => s.takeForWriting c true q .completion) s).expiry = s.expiry ∧
    (l.foldl (fun s q => s.takeForWriting c true q .completion) s).domains = s.domains ∧
    (l.foldl (fun s q => s.takeForWriting c true q .completion) s).timebase = s.timebase ∧
    (l.foldl (fun s q => s.takeForWriting c true q .completion) s).transfer = s.transfer ∧
    (l.foldl (fun s q => s.takeForWriting c true q .completion) s).choices = s.choices ∧
    (l.foldl (fun s q => s.takeForWriting c true q .completion) s).pending = s.pending ∧
    (l.foldl (fun s q => s.takeForWriting c true q .completion) s).host.device = s.host.device ∧
    (l.foldl (fun s q => s.takeForWriting c true q .completion) s).host.enable = s.host.enable ∧
    (l.foldl (fun s q => s.takeForWriting c true q .completion) s).host.admin = s.host.admin ∧
    (l.foldl (fun s q => s.takeForWriting c true q .completion) s).host.resetCause = s.host.resetCause ∧
    (l.foldl (fun s q => s.takeForWriting c true q .completion) s).host.fatalCause = s.host.fatalCause ∧
    (l.foldl (fun s q => s.takeForWriting c true q .completion) s).host.readData = s.host.readData ∧
    (l.foldl (fun s q => s.takeForWriting c true q .completion) s).poster.events = s.poster.events :=
  foldl_ind (Q := fun t => t.fetcher = s.fetcher ∧ t.executor = s.executor ∧ t.table = s.table ∧ t.wheel = s.wheel ∧ t.expiry = s.expiry ∧ t.domains = s.domains ∧ t.timebase = s.timebase ∧ t.transfer = s.transfer ∧ t.choices = s.choices ∧ t.pending = s.pending ∧ t.host.device = s.host.device ∧ t.host.enable = s.host.enable ∧ t.host.admin = s.host.admin ∧ t.host.resetCause = s.host.resetCause ∧ t.host.fatalCause = s.host.fatalCause ∧ t.host.readData = s.host.readData ∧ t.poster.events = s.poster.events )
    (by simp) (fun t q _ h => by simpa using h)

@[simp] theorem State.writeQueue_frame (s : State) (c : Fin 8) :
    (s.writeQueue c).fetcher = s.fetcher ∧ (s.writeQueue c).executor = s.executor ∧ (s.writeQueue c).table = s.table ∧
    (s.writeQueue c).wheel = s.wheel ∧ (s.writeQueue c).expiry = s.expiry ∧ (s.writeQueue c).domains = s.domains ∧
    (s.writeQueue c).timebase = s.timebase ∧ (s.writeQueue c).transfer = s.transfer ∧ (s.writeQueue c).choices = s.choices ∧
    (s.writeQueue c).pending = s.pending ∧ (s.writeQueue c).host.device = s.host.device ∧ (s.writeQueue c).host.enable = s.host.enable ∧
    (s.writeQueue c).host.admin = s.host.admin ∧ (s.writeQueue c).host.resetCause = s.host.resetCause ∧
    (s.writeQueue c).host.fatalCause = s.host.fatalCause ∧ (s.writeQueue c).host.readData = s.host.readData ∧
    (s.writeQueue c).poster.events = s.poster.events :=
  by
  simp [State.writeQueue]

@[simp] theorem State.deviceReset_frame (s : State) :
    (s.deviceReset).choices = s.choices ∧ (s.deviceReset).pending = s.pending ∧ (s.deviceReset).fetcher = .reset ∧
    (s.deviceReset).executor = .reset ∧ (s.deviceReset).table = .reset ∧ (s.deviceReset).wheel = .reset ∧ (s.deviceReset).expiry = .reset ∧
    (s.deviceReset).domains = Vector.replicate 64 Domain.reset ∧ (s.deviceReset).timebase = .reset ∧ (s.deviceReset).poster = .reset ∧
    (s.deviceReset).transfer = .reset ∧ (s.deviceReset).host.dma = [] ∧ (s.deviceReset).host.device = .disabled :=
  by
  simp [State.deviceReset, State.resetBlocks]

end Sys2Proof.Machine
end

