-- ==== Sys2Proof/Laws/Canonical.lean ====
section
/-! SUPPORT. Every operation over the Timer Table keeps its canonical form. -/

namespace Sys2Proof.Machine

/-- An operation that leaves the rows leaves the canonical form. -/
theorem wf_congr {s t : State} (h : s.table.wf = true) (hrows : t.table.rows = s.table.rows) : t.table.wf = true := by
  unfold TimerTable.wf at *; rw [hrows]; exact h

theorem wf_reset : TimerTable.reset.wf = true := rfl

theorem wf_place {s : State} (h : s.table.wf = true) (k : Nat) (e : Entry) : (s.place k e).table.wf = true :=
  wfRows_storeRow h k _

theorem wf_leavePlace {s : State} (h : s.table.wf = true) (k : Nat) (e : Entry) : (s.leavePlace k e).table.wf = true :=
  wf_congr h (by simp)

theorem wf_freeEntry {s : State} (h : s.table.wf = true) (k : Nat) : (s.freeEntry k).table.wf = true := by
  unfold State.freeEntry
  split
  · exact h
  · dsimp only
    split <;> exact wfRows_storeRow (by simpa [TimerTable.wf] using h) _ _

theorem wf_freeAll {s : State} (h : s.table.wf = true) (l : List Nat) : (s.freeAll l).table.wf = true :=
  State.forEach_ind (Q := fun s => s.table.wf = true) h (fun _ h => h) (fun k _ _ h => wf_freeEntry h k)

theorem wf_removeMarks {s : State} (h : s.table.wf = true) (d : Fin 64) : (s.removeMarks d).table.wf = true := by
  unfold State.removeMarks TimerTable.wf
  dsimp only
  exact wfRows_mapRows _ h

theorem wf_clearImportMarks {s : State} (h : s.table.wf = true) : s.clearImportMarks.table.wf = true := by
  unfold State.clearImportMarks TimerTable.wf
  dsimp only
  exact wfRows_mapRows _ h

theorem wf_makeDue {s : State} (h : s.table.wf = true) (k : Nat) : (s.makeDue k).table.wf = true := by
  unfold State.makeDue; split
  · exact h
  · exact wf_setEntry h _ _

theorem wf_splice {s : State} (h : s.table.wf = true) (l : List Nat) : (s.splice l).table.wf = true :=
  foldl_ind (Q := fun s => s.table.wf = true) h (fun _ _ _ h => wf_makeDue h _)

theorem wf_takeExpiry {s : State} (h : s.table.wf = true) (c : Fin 8) (k : Nat) : (s.takeExpiry c k).table.wf = true := by
  unfold State.takeExpiry
  split
  · exact h
  · split
    · exact h
    · dsimp only
      split
      · exact wf_setRow (wf_freeEntry (wf_setEntry (wf_congr h (by simp)) _ _) _) _ _
      · exact wf_setEntry (wf_congr h (by simp)) _ _

theorem wf_handExpiry {s : State} (h : s.table.wf = true) (c : Fin 8) (k : Nat) : (s.handExpiry c k).table.wf = true := by
  unfold State.handExpiry; split
  · exact wf_takeExpiry h c k
  · exact wf_congr h (by simp)

theorem wf_replace {s : State} (h : s.table.wf = true) (k : Nat) : (s.replace k).table.wf = true := by
  unfold State.replace; split
  · exact h
  · exact wf_place (wf_leavePlace h _ _) _ _

theorem wf_moveDue {s : State} (h : s.table.wf = true) (k : Nat) (e : Entry) : (s.moveDue k e).table.wf = true :=
  wf_setEntry (wf_leavePlace h k e) _ _

theorem wf_discard {s : State} (h : s.table.wf = true) (k : Nat) (e : Entry) : (s.discard k e).table.wf = true :=
  wf_congr (wf_freeEntry h k) (by simp [State.discard])

theorem wf_hold {s : State} (h : s.table.wf = true) (k : Nat) (e : Entry) : (s.hold k e).table.wf = true :=
  wf_setEntry (wf_leavePlace h k e) _ _

theorem wf_fireKind {s : State} (h : s.table.wf = true) (k : Nat) (e : Entry) : (s.fireKind k e).table.wf = true := by
  unfold State.fireKind; split
  · exact wf_setEntry h _ _
  · split
    · exact wf_setEntry h _ _
    · exact wf_place h _ _
  · simpa only [State.countTrip_frame] using wf_setEntry h k _

theorem wf_fire {s : State} (h : s.table.wf = true) (k : Nat) (e : Entry) : (s.fire k e).table.wf = true := by
  unfold State.fire; dsimp only; split
  · exact wf_handExpiry (wf_fireKind (wf_leavePlace h _ _) _ _) _ _
  · exact wf_fireKind (wf_leavePlace h _ _) _ _

theorem wf_takeEntry {s : State} (h : s.table.wf = true) (k : Nat) (e : Entry) : (s.takeEntry k e).table.wf = true := by
  unfold State.takeEntry; split
  · exact wf_discard h k e
  · split
    · exact wf_hold h k e
    · exact wf_fire h k e

theorem wf_clearMark {s : State} (h : s.table.wf = true) (k : Nat) : (s.clearMark k).table.wf = true := wf_setRow h _ _

theorem wf_writeEnded {s : State} (h : s.table.wf = true) (q : DmaRequest) : (s.writeEnded q).table.wf = true := by
  unfold State.writeEnded; split
  · split
    · exact wf_clearMark h _
    · exact h
  · exact h

theorem wf_undoFree {s : State} (h : s.table.wf = true) (k : Nat) (m : PostingMark) (p : Option PendingExpiry) :
    (s.undoFree k m p).table.wf = true := wf_setRow h _ _

theorem wf_restoreFires {s : State} (h : s.table.wf = true) (c : Fin 8) (i n k g : Nat) (p : PendingExpiry) :
    (s.restoreFires c i n k g p).table.wf = true := by
  unfold State.restoreFires; split
  · split
    · unfold State.restoreMarked; dsimp only; split
      · split
        · exact wf_clearMark h _
        · exact h
      · simpa only [State.updateCr_frame] using wf_undoFree h k _ _
    · exact h
  · split
    · split
      · simpa only [State.restoreInUse, State.updateCr_frame] using wf_setEntry h k _
      · exact h
    · exact h

theorem wf_rollback {s : State} (h : s.table.wf = true) (d : Fin 64) : (s.rollback d).table.wf = true := by
  unfold State.rollback
  simp only [State.updateDomain_frame]
  exact wf_freeAll h _

theorem wf_failJob {s : State} (h : s.table.wf = true) (j : Job) (st : Status) : (s.failJob j st).table.wf = true := by
  unfold State.failJob; split
  · exact wf_congr h (by simp)
  · exact wf_congr h (by simp)
  · exact wf_congr h (by simp)
  · exact wf_congr (wf_rollback h j.domain) (by simp)

theorem wf_putImported {s : State} (h : s.table.wf = true) (k n : Nat) (e : Entry) : (s.putImported k n e).table.wf = true := by
  unfold State.putImported; split
  · simpa only [State.countTrip_frame] using wf_setEntry h k _
  · split
    · exact wf_place h _ _
    · simpa only [State.updateDomain_frame] using wf_setEntry h k _

theorem wf_create {s : State} (h : s.table.wf = true) (j : Job) (r : RecordBits) : (s.create j r).table.wf = true := by
  unfold State.create; dsimp only
  simp only [State.pushDma_frame, State.updateJob_frame]
  exact wf_putImported (wf_congr h (by simp)) _ _ _

end Sys2Proof.Machine
end

