-- ==== Sys2Proof/Laws/Specs.lean ====
section
/-! SUPPORT. What the shared operations do, one lemma each: the wheel's removal and placement (R28, R31), the counts of trips (R65), the free (R14),
several frees in one claim (R179, R185), the removal of marks (R18), the splice (R40), the hand-over of completions (R156), and the run of an
accepted command (R106, R108). What a take for writing does (R154) is one of the statements for the provers. -/

namespace Sys2Proof.Machine

/-! ### Places -/

/-- R31: what `leavePlace` writes; it leaves every other block. -/
theorem State.leavePlace_spec (s : State) (k : Nat) (e : Entry) :
    (s.leavePlace k e).wheel = s.wheelWithout k e ∧ (s.leavePlace k e).domain e.domain = s.domainWithout k e ∧
      s.OnlyDomain (s.leavePlace k e) e.domain := by
  have hd : ∀ (w : Wheel) (j : Fin 64), ({ s with wheel := w } : State).domain j = s.domain j := fun _ _ => rfl
  unfold State.leavePlace State.wheelWithout State.domainWithout State.OnlyDomain
  cases e.location <;> by_cases h : e.phase = .held <;> simp +contextual [h, hd]

/-- R28: what `place` writes; it leaves every other row and every other block. -/
theorem State.place_spec (s : State) (k : Nat) (e : Entry) :
    (s.place k e).rowAt k = { s.rowAt k with entry := some (e.placedAt s.wheel.time) } ∧ s.OnlyRow (s.place k e) k ∧
      (s.place k e).wheel = s.wheel.append k (placement s.wheel.time e.deadline) := by
  have hdue : (placement s.wheel.time e.deadline = .dueQueue) ↔ e.deadline ≤ s.wheel.time := by
    unfold placement; repeat' split
    all_goals simp_all
  have hrow : ∀ j, (s.place k e).rowAt j =
      if j = k then { s.rowAt k with entry := some (e.placedAt s.wheel.time) } else s.rowAt j := by
    intro j
    rw [show (s.place k e).rowAt j = (s.setEntry k { e with
      phase := if placement s.wheel.time e.deadline = .dueQueue then .due else .armed
      location := some (placement s.wheel.time e.deadline) }).rowAt j from rfl, State.rowAt_setEntry]
    simp only [hdue, Entry.placedAt]
  exact ⟨by rw [hrow, if_pos rfl], fun j hj => by rw [hrow, if_neg hj], rfl⟩

/-- R65: what leaving TRIPPED does to the count. -/
theorem State.uncountTrip_expiry (s : State) (e : Entry) : (s.uncountTrip e).expiry = { faultTrips := s.tripsWithout e } := by
  unfold State.uncountTrip State.tripsWithout; split <;> rfl

/-- R65: what becoming TRIPPED does to the count. -/
theorem State.countTrip_expiry (s : State) (fault : Bool) :
    (s.countTrip fault).expiry = { faultTrips := s.expiry.faultTrips + if fault then 1 else 0 } := by
  cases fault <;> rfl

/-- R28, R31, R65: an entry taken from its place and placed again as `e'`, which keeps its domain. -/
theorem State.moved_of_place (s : State) (k : Nat) (e e' : Entry) :
    s.Moved (((s.leavePlace k e).uncountTrip e).place k e') k e e' := by
  obtain ⟨hw, hd, hod⟩ := s.leavePlace_spec k e
  obtain ⟨hr, hor, hwp⟩ := ((s.leavePlace k e).uncountTrip e).place_spec k e'
  have htime : ((s.leavePlace k e).uncountTrip e).wheel.time = s.wheel.time := by simp
  have hrows : ∀ j, ((s.leavePlace k e).uncountTrip e).rowAt j = s.rowAt j := fun j => State.rowAt_congr (by simp) j
  refine ⟨?_, fun j hj => ?_, ?_, ?_, fun j hj => ?_, ?_, by simp, by simp [State.SameReservation], by simp, by simp [State.OnlyTimers]⟩
  · rw [hr, hrows, htime]
  · rw [hor j hj, hrows]
  · rw [hwp, htime, State.uncountTrip_frame _ _ |>.2.2.2.2.1, hw]
  · rw [State.domain_congr (t := ((s.leavePlace k e).uncountTrip e).place k e') (s := s.leavePlace k e) (by simp), hd]
  · rw [State.domain_congr (t := ((s.leavePlace k e).uncountTrip e).place k e') (s := s.leavePlace k e) (by simp), hod j hj]
  · rw [State.place_frame _ _ _ |>.2.2.2.1, State.uncountTrip_expiry]
    simp [State.tripsWithout]

/-! ### The free -/

/-- R15, R65: all that the free column of the counts does. -/
theorem State.uncount_spec (s : State) (e : Entry) :
    (∀ j, (s.uncount e).rowAt j = s.rowAt j) ∧
      (∀ j, (s.uncount e).domain j = if j = e.domain then { s.domain j with inUse := (s.domain j).inUse - 1 } else s.domain j) ∧
      (∀ j, (s.uncount e).cr j = if j = e.ring then { s.cr j with bound := (s.cr j).bound - 1 } else s.cr j) ∧
      (s.uncount e).expiry = { faultTrips := s.tripsWithout e } := by
  unfold State.uncount
  refine ⟨fun j => State.rowAt_congr (by simp) j, fun j => ?_, fun j => ?_, ?_⟩
  · rw [State.domain_congr (State.uncountTrip_frame _ _).2.2.2.2.2.1, State.updateCr_accessors _ _ _ |>.2.1, State.domain_updateDomain]
    split <;> simp_all
  · rw [State.cr_congr (congrArg Poster.rings (State.uncountTrip_frame _ _).2.2.2.2.2.2.2.1), State.cr_updateCr]
    split <;> simp_all
  · rw [State.uncountTrip_expiry]; simp [State.tripsWithout]

/-- R14, R15, R31, R65, R160: all that a free does. -/
theorem State.freeEntry_freed {s : State} {k : Nat} {e : Entry} (h : s.entryAt k = some e) : s.Freed (s.freeEntry k) k e := by
  obtain ⟨hw, hd, hod⟩ := s.leavePlace_spec k e
  have hcr : ∀ j, (s.leavePlace k e).cr j = s.cr j := fun j => State.cr_congr (by simp) j
  have hrows : ∀ j, (s.leavePlace k e).rowAt j = s.rowAt j := fun j => State.rowAt_congr (by simp) j
  have hexp : (s.leavePlace k e).expiry = s.expiry := by simp
  have free : ∀ u : State, (∀ j, u.domain j = (s.leavePlace k e).domain j) → (∀ j, u.rowAt j = s.rowAt j) →
      u.cr e.ring = (if e.pendingExpiry.isSome then (s.cr e.ring).undefer k else s.cr e.ring) → s.OnlyCr u e.ring →
      u.wheel = (s.leavePlace k e).wheel → u.expiry = s.expiry → u.table.freeList = s.table.freeList → s.SameReservation u → s.OnlyTimers u →
      let v := (u.uncount e).setRow k { generation := nextGeneration (s.generationAt k), entry := none, mark := none }
      s.Freed { v with table := { v.table with freeList := v.table.freeList ++ [k] } } k e := by
    intro u hud hur huc huo huw hue huf hus hut v
    obtain ⟨h1, h2, h3, h4⟩ := u.uncount_spec e
    refine ⟨(State.rowAt_setRow ..).trans (if_pos rfl), fun j hj => (State.rowAt_setRow ..).trans ((if_neg hj).trans ((h1 j).trans (hur j))),
      ?_, ?_, ?_, ?_, fun j hj => ?_, ?_, fun j hj => ?_, ?_, ?_⟩
    · simpa [v] using hus.elim fun _ _ => congrArg (· ++ [k]) huf
    · simpa [v, State.SameReservation] using hus
    · simpa [v, hw] using huw
    · exact (h2 _).trans (by rw [if_pos rfl, hud, hd]; rfl)
    · exact (h2 _).trans (by rw [if_neg hj, hud, hod j hj])
    · exact (h3 _).trans (by rw [if_pos rfl, huc]; split <;> rfl)
    · exact (h3 _).trans (by rw [if_neg hj, huo j hj])
    · exact h4.trans (by simp [State.tripsWithout, hue])
    · simpa [v, State.OnlyTimers] using hut
  unfold State.freeEntry
  rw [h]
  by_cases hp : e.pendingExpiry.isSome = true
  · simp only [hp, if_true]
    exact free _ (fun j => by simp) (fun j => by simp [hrows]) (by simp [hcr, hp]) (fun j hj => by simp [hj, hcr]) (by simp) (by simp) (by simp)
      (by simp [State.SameReservation]) (by simp [State.OnlyTimers])
  · simp only [hp, Bool.false_eq_true, if_false]
    exact free _ (fun j => rfl) hrows (by simp [hcr, hp]) (fun j _ => hcr j) rfl (by simp) (by simp)
      (by simp [State.SameReservation]) (by simp [State.OnlyTimers])

/-! ### Several frees in one claim -/

/-- Frees one after another, of different slots in use: what each slot becomes, what the free list gains, and what the domain of them all loses. -/
theorem foldl_freeEntry (l : List Nat) : ∀ s : State, l.Nodup → (∀ k ∈ l, s.entryAt k ≠ none) →
    let t := l.foldl (fun s k => s.freeEntry k) s
    (∀ k ∈ l, t.rowAt k = { generation := nextGeneration (s.generationAt k), entry := none, mark := none }) ∧
      (∀ k, k ∉ l → t.rowAt k = s.rowAt k) ∧ t.table.freeList = s.table.freeList ++ l ∧
      ∀ d, (∀ k ∈ l, ∀ e, s.entryAt k = some e → e.domain = d) →
        (t.domain d).inUse = (s.domain d).inUse - l.length ∧ s.OnlyDomain t d := by
  induction l with
  | nil => intro s _ _; simp [State.OnlyDomain]
  | cons k l ih =>
    intro s hn he
    obtain ⟨hkl, hl⟩ := List.nodup_cons.1 hn
    obtain ⟨e, hk⟩ := Option.ne_none_iff_exists'.1 (he k (by simp))
    obtain ⟨f1, f2, f3, f4, f5, f6, f7, -⟩ := State.freeEntry_freed hk
    have hrow : ∀ j ∈ l, (s.freeEntry k).rowAt j = s.rowAt j := fun j hj => f2 j (by rintro rfl; exact hkl hj)
    obtain ⟨g1, g2, g3, g4⟩ := ih (s.freeEntry k) hl (fun j hj => by rw [State.entryAt, hrow j hj]; exact he j (by simp [hj]))
    refine ⟨fun j hj => ?_, fun j hj => ?_, ?_, fun d hd => ?_⟩
    · rcases List.mem_cons.1 hj with rfl | hj
      · rw [List.foldl_cons, g2 _ hkl, f1]
      · rw [List.foldl_cons, g1 j hj, State.generationAt, hrow j hj]; rfl
    · simp only [List.mem_cons, not_or] at hj
      rw [List.foldl_cons, g2 j hj.2, f2 j hj.1]
    · rw [List.foldl_cons, g3, f3]; simp
    · have hed := hd k (by simp) e hk
      obtain ⟨g5, g6⟩ := g4 d (fun j hj e' h => hd j (by simp [hj]) e' (by rw [State.entryAt, ← hrow j hj]; exact h))
      refine ⟨?_, fun j hj => ?_⟩
      · rw [List.foldl_cons, g5, ← hed, f6]; simp; omega
      · rw [List.foldl_cons, g6 j hj, f7 j (by rw [hed]; exact hj)]

/-- R179, R185: all that one claim's frees do; `l'` is the order that the spec leaves open (assumption log 4). -/
theorem State.freeAll_spec (s : State) (l : List Nat) (hn : l.Nodup) (he : ∀ k ∈ l, s.entryAt k ≠ none) :
    ∃ l' : List Nat, l'.Perm l ∧ let t := s.freeAll l
      (∀ k ∈ l, t.rowAt k = { generation := nextGeneration (s.generationAt k), entry := none, mark := none }) ∧
        (∀ k, k ∉ l → t.rowAt k = s.rowAt k) ∧ t.table.freeList = s.table.freeList ++ l' ∧
        ∀ d, (∀ k ∈ l, ∀ e, s.entryAt k = some e → e.domain = d) →
          (t.domain d).inUse = (s.domain d).inUse - l'.length ∧ s.OnlyDomain t d := by
  unfold State.freeAll State.forEach
  split
  · exact ⟨l, .refl _, foldl_freeEntry l s hn he⟩
  · have hp : (freeOrder s.choices l).Perm l := List.perm_insertionSort _ _
    obtain ⟨a, b, c, d⟩ := foldl_freeEntry (freeOrder s.choices l) { s with choices := s.choices + 1 } (hp.nodup_iff.2 hn)
      (fun k hk => he k (hp.mem_iff.1 hk))
    exact ⟨_, hp, fun k hk => a k (hp.mem_iff.2 hk), fun k hk => b k (fun h => hk (hp.mem_iff.1 h)), c,
      fun dd hd => d dd (fun k hk => hd k (hp.mem_iff.1 hk))⟩

/-- In canonical form the entries are listed by slot, each slot once. -/
theorem State.entries_nodup {s : State} (h : s.table.wf = true) : (s.entries.map Prod.fst).Nodup := by
  have hp := ((TimerTable.wfRows_iff _).1 h).1
  have hrows : (s.table.rows.map Prod.fst).Nodup := by
    rw [List.Nodup, List.pairwise_map]; exact hp.imp (fun h => Nat.ne_of_lt h)
  refine hrows.sublist ?_
  unfold State.entries
  generalize s.table.rows = rows
  induction rows with
  | nil => simp
  | cons p rest ih =>
    rw [List.filterMap_cons]
    cases p.2.entry with
    | none => exact ih.cons _
    | some e => simpa using ih.cons_cons p.1

theorem State.filter_entries_nodup {s : State} (h : s.table.wf = true) (p : Nat × Entry → Bool) :
    ((s.entries.filter p).map Prod.fst).Nodup := (State.entries_nodup h).sublist (List.filter_sublist.map _)

theorem State.mem_filter_entries {s : State} (h : s.table.wf = true) (p : Nat × Entry → Bool) (k : Nat) :
    k ∈ (s.entries.filter p).map Prod.fst ↔ ∃ e, s.entryAt k = some e ∧ p (k, e) = true := by
  simp only [List.mem_map, List.mem_filter, Prod.exists]
  constructor
  · rintro ⟨a, b, ⟨hm, hp⟩, rfl⟩; exact ⟨b, (State.mem_entries h).1 hm, hp⟩
  · rintro ⟨e, he, hp⟩; exact ⟨k, e, ⟨(State.mem_entries h).2 he, hp⟩, rfl⟩

/-! ### Marks, and the splice -/

/-- R18: what `removeMarks` does to every slot. -/
theorem State.removeMarks_unmarked {s : State} (h : s.Canonical) (d : Fin 64) : s.Unmarked (s.removeMarks d) d := by
  intro k
  simp only [State.removeMarks, State.rowAt]
  rw [lookupRow_mapRows (by rfl) h]
  simp only [State.markAt, State.rowAt]
  generalize lookupRow s.table.rows k = r
  rcases r with ⟨g, e, m⟩
  cases m with
  | none => simp
  | some m => by_cases hm : m.entry.domain = d <;> simp [hm, Option.filter]

/-- R40: what the splice's changes of phase do to every slot. -/
theorem State.rowAt_foldl_makeDue (l : List Nat) : ∀ (s : State) (k : Nat), (l.foldl State.makeDue s).rowAt k =
    if k ∈ l then { s.rowAt k with entry := (s.entryAt k).map (fun e => { e with phase := .due, location := some .dueQueue }) }
    else s.rowAt k := by
  induction l with
  | nil => simp
  | cons a l ih =>
    intro s k
    have hone : ∀ j, (s.makeDue a).rowAt j =
        if j = a then { s.rowAt a with entry := (s.entryAt a).map (fun e => { e with phase := .due, location := some .dueQueue }) }
        else s.rowAt j := by
      intro j
      unfold State.makeDue
      cases he : s.entryAt a with
      | none =>
        by_cases hj : j = a <;> simp [hj]
        simp only [State.entryAt] at he
        cases hh : s.rowAt a
        simp_all
      | some e => simp
    rw [List.foldl_cons, ih, State.entryAt, hone]
    by_cases hka : k = a
    · subst hka; by_cases hl : k ∈ l <;> simp [hl, State.entryAt, Function.comp_def]
    · simp [hka, State.entryAt]

/-! ### The hand-over of completions -/

/-- R156: in READY, an ACTIVE ring's completion is taken for writing with its reservation. -/
theorem State.handCompletion_active {s : State} {c : Fin 8} (hready : s.host.device = .ready) (h : (s.cr c).state = .active) (record : Completion) :
    s.handCompletion c record = s.takeForWriting c true record .completion := by
  simp [State.handCompletion, State.ready, hready, h]

/-- R156, R171: otherwise it joins the ring's completion queue. -/
theorem State.handCompletion_queued {s : State} {c : Fin 8} (h : s.host.device ≠ .ready ∨ (s.cr c).state ≠ .active) (record : Completion) :
    s.handCompletion c record = s.updateCr c (fun r => { r with queue := r.queue ++ [record] }) := by
  rcases h with h | h <;> simp [State.handCompletion, State.ready, h]

/-! ### Commands -/

/-- R106, R108: the run of a command in hand whose early checks pass. -/
theorem runCommand_of_takes {k : CommandKind} {fieldsBad : CommandBits → Nat → Bool} {body : Taken → State → State} {s : State} {w : Taken}
    (h : s.Takes k w) (hadmin : k.adminOnly = true → w.ticket.source = 0) (hfields : fieldsBad w.record w.takenAt = false) :
    runCommand k fieldsBad body s = body w s.takeRecord := by
  unfold runCommand
  rw [h.1]
  simp only [h.2, if_true]
  rw [if_neg (fun hc => hc.2 (hadmin hc.1)), if_neg (by simp [hfields])]

/-- R108: a command whose checks are decided. -/
theorem checked_of_none {k : CommandKind} {w : Taken} {checks : List (Bool × Status)} {effect : State → State × Reply} {s : State}
    (h : firstFailure checks = none) : checked k w checks effect s = (effect s).1.answer w.ticket (effect s).2 := by
  simp [checked, h]

theorem checked_of_some {k : CommandKind} {w : Taken} {checks : List (Bool × Status)} {effect : State → State × Reply} {s : State}
    {status : Status} (h : firstFailure checks = some status) : checked k w checks effect s = s.answer w.ticket (refusal k status w.record) := by
  simp [checked, h]

/-- R106, R69, R77, R81, R119: an ARBITRATION takes the record that may be taken, or, of a kind whose take and claim are one step, nothing. -/
theorem State.takeAhead_spec (s : State) :
    (s.takeAhead = s.takeRecord ∧ ∀ d, s.takeable = some d → (kindOf d.record).any (·.atOnce) = false) ∨
      (s.takeAhead = s ∧ ∃ d, s.takeable = some d ∧ (kindOf d.record).any (·.atOnce) = true) := by
  cases h : s.takeable with
  | none => exact .inl ⟨by simp [State.takeAhead, State.takeRecord, h], fun d hd => by cases hd⟩
  | some d =>
    cases hk : (kindOf d.record).any (·.atOnce) with
    | true => exact .inr ⟨by simp [State.takeAhead, h, hk], d, rfl, hk⟩
    | false => exact .inl ⟨by simp [State.takeAhead, h, hk], fun d' hd => by cases hd; exact hk⟩

/-! ### Reads of the register window -/

/-- R197: one read access changes nothing but the high-word latch. -/
theorem State.readAccess_spec (s : State) (offset : Nat) (width : AccessWidth) :
    ∃ latch : Word, (s.readAccess offset width).2 = { s with timebase := { s.timebase with latch := latch } } := by
  have word : ∀ (s : State) (o : Nat), ∃ latch : Word, (s.readWord o).2 = { s with timebase := { s.timebase with latch := latch } } := by
    intro s o
    unfold State.readWord
    split
    · exact ⟨_, rfl⟩
    · exact ⟨s.timebase.latch, rfl⟩
  have words : ∀ (n o : Nat) (s : State),
      ∃ latch : Word, (State.readWords o n s).2 = { s with timebase := { s.timebase with latch := latch } } := by
    intro n
    induction n with
    | zero => exact fun _ s => ⟨s.timebase.latch, rfl⟩
    | succ n ih =>
      intro o s
      obtain ⟨a, ha⟩ := word s o
      obtain ⟨b, hb⟩ := ih (o + 4) (s.readWord o).2
      exact ⟨b, by show (State.readWords (o + 4) n (s.readWord o).2).2 = _; rw [hb, ha]⟩
  cases width with
  | byte => exact word s _
  | half => exact word s _
  | threeBytes => exact word s _
  | words n => exact words n offset s

end Sys2Proof.Machine
end

