-- ==== Sys2Proof/WellFormed.lean ====
section
/-! DEFINITION. Which commands are well formed. The operand types bound every ring, domain and data operand; what is left is the
place of a register access, and the number of the words it carries. -/

namespace Sys2Proof

/-- R197: an access of this width may start at `offset`: a narrower one lies within one word, any other is taken as aligned words. -/
def AccessWidth.fitsAt (offset : Nat) : AccessWidth → Bool
  | .byte => true
  | .half => decide (offset % 4 + 2 ≤ 4)
  | .threeBytes => decide (offset % 4 + 3 ≤ 4)
  | .words _ => offset % 4 == 0

/-- How many bytes an access of this width covers. -/
def AccessWidth.bytes : AccessWidth → Nat
  | .byte => 1
  | .half => 2
  | .threeBytes => 3
  | .words count => 4 * count

/-- How many words hold the data of a write of this width. -/
def AccessWidth.dataWords : AccessWidth → Nat
  | .byte | .half | .threeBytes => 1
  | .words count => count

/-- R197: "The window is accessed in aligned 32-bit words"; a narrower access is of whole bytes and lies within one word (DEDUCED, assumption
log 36). DEVICE_TIME_LOW_READ covers some byte of the low word, 0x040 to 0x043 (section 11.2). -/
def Instr.wellFormed : Instr → Bool
  | .registerWrite offset width value => width.fitsAt offset && value.length == width.dataWords
  | .deviceTimeLowRead offset width =>
    width.fitsAt offset && decide (offset < 0x044) && decide (0x040 < offset + width.bytes)
  | .arm | .rearm | .cancel | .kick | .query | .readStatus
  | .openSubmissionRing | .closeSubmissionRing | .openCompletionRing | .closeCompletionRing | .restartCompletionRing
  | .setTimebase | .createDomain | .destroyDomain | .pauseDomain | .resumeDomain
  | .exportDomain | .importDomain | .abortTransfer | .invalidKind | .allocation
  | .srTailWrite _ _ | .crHeadWrite _ _ | .enableSet | .enableClear | .deviceReset | .powerOnReset
  | .disable | .arbitration | .recordArrival _ | .readBusError
  | .tickEvent | .refinEdge _ | .loss | .goodRun _ | .edgeEquivalent
  | .wheelStep | .overflowSweep | .cascade | .l0Emptying | .stepEnd | .take
  | .drain _ | .eventPost | .countTrigger _ | .delayTrigger _ | .writeDone | .writeFailed
  | .destroyWalkVisit _ | .destroyWalkEnd _
  | .exportVisit | .transferWriteDone | .exportRelease | .transferReadDone _ | .importCreation | .transferBusError => true

end Sys2Proof
end

