-- ==== Sys2Proof/Tests/Slice0.lean ====
section
/-! SUPPORT. Tests of one step each, on small states, with what the spec's own examples give as the expected values; and, for every statement
of Certificates/Slice0/Obligations.lean that has hypotheses, a witness: states and operands that meet them. -/

-- One theorem is checked after another: each waits for the kernel, and with many at once every wait would take a thread of its own.
set_option Elab.async false

namespace Sys2Proof.Tests

open Sys2Proof.Machine

/-! ### Builders -/

/-- A command record with these fields, each as its byte offset in section 11.3 and its value. -/
def record (fields : List (Nat × Nat)) : CommandBits := BitVec.ofNat 512 ((fields.map (fun f => f.2 * 2 ^ (8 * f.1))).sum)

/-- An image record with these fields, each as its byte offset in section 11.5 and its value. -/
def image (fields : List (Nat × Nat)) : RecordBits := BitVec.ofNat 256 ((fields.map (fun f => f.2 * 2 ^ (8 * f.1))).sum)

/-- An ACTIVE completion ring of this size. -/
def crActive (size : Nat) : CompletionRing :=
  { CompletionRing.reset with state := .active, base := 0x80100000#64, size := size, moderationCount := 1, messageAddress := 0x900#64 }

/-- An ACTIVE submission ring paired with `c`. -/
def srActive (c : Fin 8) : SubmissionRing :=
  { SubmissionRing.reset with state := .active, base := 0x40000#64, size := 16, paired := c, weight := 4 }

/-- A RUNNING domain with this quota and in-use count. -/
def running (quota inUse : Nat) : Domain := { Domain.reset with state := .running, quota := some quota, inUse := inUse }

/-- A PAUSED domain. -/
def paused (depth start quota inUse : Nat) : Domain :=
  { running quota inUse with state := .paused, pauseDepth := depth, pauseStart := some start }

/-- An ARMED one-shot of domain 3 and ring 2, in no place yet. -/
def oneshot (deadline : Nat) : Entry :=
  { phase := .armed, kind := .oneshot, domain := 3, ring := 2, deadline := deadline, period := none, fireLimit := none, cookie := 0x7C10#64
    faultOption := false, totalFires := 0, pendingExpiry := none, importMark := false, location := none }

/-- A periodic entry. -/
def periodic (deadline period : Nat) : Entry := { oneshot deadline with kind := .periodic, period := some period }

/-- A guard with the fault option. -/
def guardEntry (deadline period : Nat) : Entry :=
  { oneshot deadline with kind := .guard, period := some period, faultOption := true }

/-- One fire at `deadline`, waiting. -/
def waitingFire (deadline : Nat) : PendingExpiry :=
  { kind := .expiry, fireCount := 1, missedCount := 0, latestDeadline := deadline, holdover := false }

/-- A READY device, N and W at 50,000, FREE_RUNNING, CR0 and CR2 ACTIVE, SR0 and SR2 ACTIVE, domain 3 RUNNING; the free list is shortened to three
slots, so that the tests stay small. -/
def base : State :=
  let s : State := { State.reset with
    host := { HostPort.reset with device := .ready, enable := true }
    table := { TimerTable.reset with rows := [(12, { generation := 4, entry := none, mark := none })], freeList := [12, 40, 41] }
    wheel := { Wheel.reset with time := 50000 }
    timebase := { Timebase.reset with time := 50000, state := .freeRunning, source := .internal, divisor := some 25000 } }
  let s := (s.updateCr 0 (fun _ => crActive 16)).updateCr 2 (fun _ => crActive 16)
  let s := (s.updateSr 0 (fun _ => srActive 0)).updateSr 2 (fun _ => srActive 2)
  s.updateDomain 3 (fun _ => running 10 4)

/-- N and W. -/
def at_ (s : State) (n w : Nat) : State := { s with timebase := { s.timebase with time := n }, wheel := { s.wheel with time := w } }

/-- `r`, from ring `source` with its reservation in the ring of the same number, is in the input place. -/
def given (s : State) (source : Fin 8) (r : CommandBits) : State :=
  let s := { s with executor := { s.executor with input := some { record := r, source := source, ring := source } } }
  s.updateCr source (fun c => { c with reserved := c.reserved + 1 })

/-- The command that the executor has in hand when `given` has put `r` there, taken at N = `now`. -/
def taken (source : Fin 8) (r : CommandBits) (now : Nat := 50000) : Taken :=
  { ticket := { source := source, ring := source, tag := recTag r }, record := r, takenAt := now }

/-- `r` is EXECUTING, taken at N = `now`, in a device in this state. -/
def executing (s : State) (device : DeviceState) (source : Fin 8) (r : CommandBits) (now : Nat := 50000) : State :=
  { s with host := { s.host with device := device }, executor := { s.executor with state := .executing (taken source r now) } }

/-- The table with only these entries, each a slot, its generation and what it holds. -/
def withEntries (s : State) (rows : List (Nat × Nat × Entry)) : State :=
  { s with table := { s.table with rows := rows.map (fun p => (p.1, { generation := p.2.1, entry := some p.2.2, mark := none })) } }

/-- The command answers a next state, of which `f` holds. -/
def after (c : Instr) (s : State) (f : State → Bool) : Bool :=
  match exec c s with
  | .next t => f t
  | _ => false

/-- Status, handle, count, word A and word B of the last record written, by section 11.4. -/
def lastRecord (s : State) : Option (Nat × Nat × Nat × Nat × Nat) :=
  match (s.host.dma.filter (fun q => match q with | .recordWrite .. => true | _ => false)).getLast? with
  | some (.recordWrite _ _ _ _ r _) =>
    some (r.toNat % 256, r.toNat / 2 ^ 64 % 2 ^ 32, r.toNat / 2 ^ 96 % 2 ^ 32, r.toNat / 2 ^ 128 % 2 ^ 64, r.toNat / 2 ^ 192)
  | _ => none

/-- The flags of the last record written (section 11.4, bytes 2 to 3). -/
def lastFlags (s : State) : Option Nat :=
  match (s.host.dma.filter (fun q => match q with | .recordWrite .. => true | _ => false)).getLast? with
  | some (.recordWrite _ _ _ _ r _) => some (r.toNat / 2 ^ 16 % 2 ^ 16)
  | _ => none

/-! ### WellFormed -/

/-- R197: a word access at an offset that is no multiple of 4 is refused. -/
theorem test_wellFormed_refuses_unaligned_word : (Instr.registerWrite 0x012 (.words 1) [0#32]).wellFormed = false := by decide

/-- The same of a wider access. -/
theorem test_wellFormed_refuses_unaligned_double : (Instr.registerWrite 0x012 (.words 2) [0#32, 0#32]).wellFormed = false := by decide

/-- A narrower access that leaves its word is refused; one that lies within it is not. -/
theorem test_wellFormed_refuses_straddling_access :
    (Instr.registerWrite 0x013 .half [0#32]).wellFormed = false ∧ (Instr.registerWrite 0x012 .threeBytes [0#32]).wellFormed = false ∧
    (Instr.registerWrite 0x011 .half [0#32]).wellFormed = true ∧ (Instr.deviceTimeLowRead 0x041 .threeBytes).wellFormed = true := by decide

/-- An aligned word access, and a 64-bit one at a multiple of 4, are well formed. -/
theorem test_wellFormed_accepts_aligned :
    (Instr.registerWrite 0x014 (.words 1) [0#32]).wellFormed = true ∧ (Instr.registerWrite 0x014 (.words 2) [0#32, 0#32]).wellFormed = true := by
  decide

/-- R103: a read that covers no byte of DEVICE_TIME's low word is no DEVICE_TIME_LOW_READ. -/
theorem test_wellFormed_refuses_other_read :
    (Instr.deviceTimeLowRead 0x044 (.words 1)).wellFormed = false ∧ (Instr.deviceTimeLowRead 0x038 (.words 2)).wellFormed = false := by decide

/-- R197: a write that carries fewer words than its width names is refused. -/
theorem test_wellFormed_refuses_missing_word : (Instr.registerWrite 0x010 (.words 2) [0#32]).wellFormed = false := by decide

/-- A read of one of its bytes is, and so is one of three words that ends with it. -/
theorem test_wellFormed_accepts_reads :
    (Instr.deviceTimeLowRead 0x043 .byte).wellFormed = true ∧ (Instr.deviceTimeLowRead 0x038 (.words 3)).wellFormed = true := by decide

/-! ### Timer commands -/

/-- ARM's example (chapter 6): PERIODIC, RELATIVE 2,500, period 1,000, fire limit 3, domain 3, completion ring 2, cookie 0x7C10. -/
def armRecord : CommandBits :=
  record [(0, 0x01), (1, 1), (2, 1), (6, 3), (8, 2), (16, 2500), (24, 0x7C10), (32, 1000), (36, 3)]

/-- ARM's example: L1 slot 52, handle entry 12 generation 4, word A 52,500. -/
theorem test_arm_example : after .arm (given base 2 armRecord) (fun t =>
    t.wheelSlot 1 52 = [12] ∧ (t.domain 3).inUse = 5 ∧ (t.cr 2).bound = 1 ∧ t.table.freeList = [40, 41] ∧
      lastRecord t = some (0, 0x4000C, 0, 52500, 0)) = true := by decide +kernel

/-- ARM into a full domain: QUOTA_EXCEEDED, the free list unchanged. -/
theorem test_arm_quota : after .arm (given (base.updateDomain 3 (fun _ => running 10 10)) 2 armRecord) (fun t =>
    t.table.freeList = [12, 40, 41] ∧ lastRecord t = some (0x27, 0, 0, 0, 0)) = true := by decide +kernel

/-- REARM's, CANCEL's and QUERY's examples: entry 12 generation 4, ARMED in L1 slot 52, with N and W at 50,040. -/
def armed12 : State :=
  let s := withEntries (at_ base 50040 50040) [(12, 4, { periodic 52500 1000 with fireLimit := some 3, location := some (.slot 1 52) })]
  let s : State := { s with wheel := s.wheel.append 12 (.slot 1 52), table := { s.table with freeList := [40, 41] } }
  (s.updateDomain 3 (fun _ => running 10 5)).updateCr 2 (fun c => { c with bound := 1 })

/-- REARM's example: ABSOLUTE 50,100 moves the entry to L1 slot 14 and keeps its period. -/
theorem test_rearm_example : after .rearm (given armed12 2 (record [(0, 0x02), (12, 0x4000C), (16, 50100)])) (fun t =>
    t.wheelSlot 1 52 = [] ∧ t.wheelSlot 1 14 = [12] ∧ (t.entryAt 12).map (fun e => (e.deadline, e.period)) = some (50100, some 1000) ∧
      lastRecord t = some (0, 0x4000C, 0, 50100, 0)) = true := by decide +kernel

/-- R115: a period given to a one-shot is refused WRONG_KIND. -/
theorem test_rearm_wrong_kind : after .rearm
    (given (withEntries base [(12, 4, { oneshot 52500 with location := some (.slot 1 52) })]) 2
      (record [(0, 0x02), (12, 0x4000C), (16, 50100), (32, 7)])) (fun t =>
    lastRecord t = some (0x32, 0x4000C, 0, 0, 0)) = true := by decide +kernel

/-- CANCEL's example: slot 12 is FREE with generation 5 at the tail of the free list. -/
theorem test_cancel_example : after .cancel (given armed12 2 (record [(0, 0x03), (12, 0x4000C)])) (fun t =>
    t.rowAt 12 = { generation := 5, entry := none, mark := none } ∧ t.table.freeList = [40, 41, 12] ∧ (t.domain 3).inUse = 4 ∧
      t.wheelSlot 1 52 = [] ∧ lastRecord t = some (0, 0x4000C, 0, 0, 0)) = true := by decide +kernel

/-- Section 12.2: a CANCEL of an entry whose pending expiry waits is answered WITHDRAWN. -/
theorem test_cancel_withdrawn : after .cancel
    (given ((withEntries base [(500, 3, { oneshot 10000 with phase := .fired, pendingExpiry := some (waitingFire 10000) })]).updateCr 2
      (fun c => { c with deferred := [500] })) 2 (record [(0, 0x03), (12, 0x301F4)])) (fun t =>
    (t.cr 2).deferred = [] ∧ t.generationAt 500 = 4 ∧ lastRecord t = some (0x01, 0x301F4, 0, 0, 0)) = true := by decide +kernel

/-- KICK's example: guard entry 77 generation 2, TRIPPED at 9,000, with its GUARD_TRIP waiting. -/
def tripped77 : State :=
  let s := withEntries (at_ base 9020 9020)
    [(77, 2, { guardEntry 9000 300 with phase := .tripped, pendingExpiry := some { waitingFire 9000 with kind := .guardTrip } })]
  { s.updateCr 2 (fun c => { c with deferred := [77] }) with expiry := { faultTrips := 1 } }

/-- KICK's example: ARMED at 9,320, the GUARD_TRIP still waiting, FAULT_OUT deasserted, flags was tripped and fault option. -/
theorem test_kick_example : after .kick (given tripped77 2 (record [(0, 0x04), (12, 0x2004D)])) (fun t =>
    (t.entryAt 77).map (fun e => (e.phase, e.deadline)) = some (.armed, 9320) ∧ (t.cr 2).deferred = [77] ∧ t.faultOut = false ∧
      lastRecord t = some (0, 0x2004D, 0, 9320, 0) ∧ lastFlags t = some 6) = true := by decide +kernel

/-- KICK's example: a periodic entry is answered WRONG_KIND. -/
theorem test_kick_wrong_kind : after .kick (given armed12 2 (record [(0, 0x04), (12, 0x4000C)])) (fun t =>
    lastRecord t = some (0x32, 0x4000C, 0, 0, 0)) = true := by decide +kernel

/-- QUERY's example, asked at N = 52,460, 40 ticks before the deadline: ARMED (1 at bit 4), PERIODIC (1 at bit 7), word A 40, word B 0x7C10. And R70: the remaining
ticks of a TRIPPED guard are 0, also before its deadline, which an import can leave. -/
theorem test_query_example :
    after .query (given (at_ armed12 52460 50040) 2 (record [(0, 0x05), (12, 0x4000C)])) (fun t =>
      lastRecord t = some (0, 0x4000C, 0, 40, 0x7C10) ∧ lastFlags t = some 144) = true ∧
    after .query (given (at_ tripped77 8900 8900) 2 (record [(0, 0x05), (12, 0x2004D)])) (fun t =>
      lastRecord t = some (0, 0x2004D, 0, 0, 0x7C10)) = true := by decide +kernel

/-- QUERY's example: a stale handle is answered NOT_FOUND. -/
theorem test_query_not_found : after .query (given armed12 2 (record [(0, 0x05), (12, 0x3000C)])) (fun t =>
    lastRecord t = some (0x31, 0x3000C, 0, 0, 0)) = true := by decide +kernel

/-- READ STATUS's example, with two deferred entries and three FREE slots: word A is N, word B is W, LOCKED (2 at bit 9), the overrun flag (bit 12). -/
theorem test_readStatus_example : after .readStatus
    (given (let s := (at_ base 814002 809117).updateCr 2 (fun c => { c with deferred := [7, 9] })
      { s with timebase := { s.timebase with state := .locked }, wheel := { s.wheel with overrun := true } }) 2 (record [(0, 0x06)])) (fun t =>
    lastRecord t = some (0, 2 * 65536, 3, 814002, 809117) ∧ lastFlags t = some (1024 + 4096)) = true := by decide +kernel

/-! ### Ring commands and SET TIMEBASE -/

/-- OPEN SUBMISSION RING's example. -/
theorem test_openSubmissionRing_example : after .openSubmissionRing
    (given base 0 (record [(0, 0x10), (7, 3), (8, 2), (9, 4), (40, 0x480000000), (56, 256)])) (fun t =>
    t.sr 3 = { state := .active, base := 0x480000000#64, size := 256, head := 0, tail := 0, paired := 2, weight := 4, cause := .none } ∧
      lastRecord t = some (0, 0, 0, 0, 0)) = true := by decide +kernel

/-- The same onto a CLOSED paired ring is answered NO_SUCH_RING. An open that finds the ring in its grant keeps the weight of the grant (R145). -/
theorem test_openSubmissionRing_unpaired : after .openSubmissionRing
    (given base 0 (record [(0, 0x10), (7, 3), (8, 5), (9, 4), (40, 0x480000000), (56, 256)])) (fun t =>
    (t.sr 3).state = .closed ∧ lastRecord t = some (0x40, 0, 0, 0, 0)) = true ∧
    after .openSubmissionRing
      (let s := given base 0 (record [(0, 0x10), (7, 3), (8, 2), (9, 4), (40, 0x480000000), (56, 256)])
       { s with fetcher := { s.fetcher with grant := some 3, used := 1, grantWeight := 2 } }) (fun t =>
      (t.sr 3).weight = 4 ∧ t.fetcher.grantWeight = 2) = true := by decide +kernel

/-- CLOSE SUBMISSION RING's example: SR3 with a fetch of slot 5 in flight. -/
def fetching3 : State :=
  let s := base.updateSr 3 (fun _ => { srActive 2 with head := 5, tail := 9 })
  let s := s.updateCr 2 (fun c => { c with reserved := 1 })
  ({ s with fetcher := { s.fetcher with path := .reading { source := 3, headSlot := 5, ring := 2 } } } : State).pushDma
    (.fetchRead 3 (0x40000 + 320))

/-- CLOSE SUBMISSION RING's example: the CLOSE's take frees the path, the fetch of SR3's slot 5 starts, and the claim finds it outstanding: CLOSING, the
completion held. -/
theorem test_closeSubmissionRing_example :
    let s := given (base.updateSr 3 (fun _ => { srActive 2 with head := 5, tail := 9 })) 0 (record [(0, 0x11), (7, 3)])
    after .arbitration { s with fetcher := { s.fetcher with path := .delivered { source := 0, headSlot := 0, ring := 0 } } } (fun t =>
      t.executor.state = .executing (taken 0 (record [(0, 0x11), (7, 3)])) ∧ t.executor.input = none ∧
        t.fetcher.path = .reading { source := 3, headSlot := 5, ring := 2 } ∧
        after .closeSubmissionRing t (fun u =>
          (u.sr 3).state = .closing ∧ (u.executor.held).map (fun h => (h.closing, h.ring)) = some (3, 0) ∧ lastRecord u = none ∧
            u.executor.state = .idle)) = true := by
  decide +kernel

/-- A ring in ERROR is CLOSED at once, and word A reports its cause, BUS_ERROR. -/
theorem test_closeSubmissionRing_error : after .closeSubmissionRing
    (given (base.updateSr 3 (fun _ => { srActive 2 with state := .error, cause := .busError })) 0 (record [(0, 0x11), (7, 3)])) (fun t =>
    t.sr 3 = SubmissionRing.reset ∧ lastRecord t = some (0, 0, 0, 1, 0)) = true := by decide +kernel

/-- A ring in ERROR is closed during its read (R146), and opened again: the record that arrives leaves the new opening's head at 0 (assumption log 31). -/
theorem test_closeSubmissionRing_noted : after .closeSubmissionRing
    (given (fetching3.updateSr 3 (fun r => { r with state := .error, cause := .badIndex })) 0 (record [(0, 0x11), (7, 3)])) (fun t =>
    (t.sr 3).state = .closed ∧ t.fetcher.path = .reading { source := 3, headSlot := 5, ring := 2, ringClosed := true } ∧
    after (.recordArrival 0#512) (t.updateSr 3 (fun _ => srActive 2)) (fun u => (u.sr 3).head = 0)) = true := by decide +kernel

/-- OPEN COMPLETION RING's example, with ring 5: size 1,024, moderation 8 and 100, interrupts enabled; 1,023 free slots. -/
theorem test_openCompletionRing_example : after .openCompletionRing
    (given base 0 (record [(0, 0x12), (2, 32), (7, 5), (10, 8), (38, 100), (40, 0x480100000), (48, 0x1004), (56, 1024), (60, 0x55)])) (fun t =>
    (t.cr 5).state = .active ∧ (t.cr 5).freeSpace = 1023 ∧ (t.cr 5).moderationCount = 8 ∧ (t.cr 5).moderationDelay = 100 ∧
      (t.cr 5).interrupts = true ∧ (t.cr 5).messageAddress = 0x1004#64 ∧ (t.cr 5).messageData = 0x55#32) = true := by decide +kernel

/-- A base that is no multiple of 64 is refused INVALID_FIELD. -/
theorem test_openCompletionRing_misaligned : after .openCompletionRing
    (given base 0 (record [(0, 0x12), (7, 5), (10, 8), (40, 0x480100020), (56, 1024)])) (fun t =>
    (t.cr 5).state = .closed ∧ lastRecord t = some (0x11, 0, 0, 0, 0)) = true := by decide +kernel

/-- CLOSE COMPLETION RING's example: a ring that an open submission ring is paired with is answered RING_IN_USE. -/
theorem test_closeCompletionRing_in_use : after .closeCompletionRing (given base 0 (record [(0, 0x13), (7, 2)])) (fun t =>
    (t.cr 2).state = .active ∧ lastRecord t = some (0x42, 0, 0, 0, 0)) = true := by decide +kernel

/-- CLOSE COMPLETION RING's example: one that nothing uses is CLOSED. -/
theorem test_closeCompletionRing_closes : after .closeCompletionRing
    (given (base.updateCr 4 (fun _ => crActive 16)) 0 (record [(0, 0x13), (7, 4)])) (fun t =>
    t.cr 4 = CompletionRing.reset ∧ lastRecord t = some (0, 0, 0, 0, 0)) = true := by decide +kernel

/-- RESTART COMPLETION RING's example: CR2 in ERROR. -/
def failedRing : CompletionRing :=
  { crActive 1024 with
    state := .error, tail := 700, head := 690, reserved := 1, deferred := [70, 71, 72], restoredRun := 1, phase := false, cause := .busError
    unconsumed := 10 }

/-- RESTART COMPLETION RING's example: 1,022 free slots, count 3, word A 1. -/
theorem test_restartCompletionRing_example : after .restartCompletionRing
    (given (base.updateCr 2 (fun _ => failedRing)) 0 (record [(0, 0x14), (7, 2)])) (fun t =>
    (t.cr 2).state = .active ∧ (t.cr 2).tail = 0 ∧ (t.cr 2).head = 0 ∧ (t.cr 2).phase = true ∧ (t.cr 2).freeSpace = 1022 ∧
      (t.cr 2).base = failedRing.base ∧ lastRecord t = some (0, 0, 3, 1, 0)) = true := by decide +kernel

/-- R124: an ACTIVE ring is answered RING_NOT_FAILED. -/
theorem test_restartCompletionRing_active : after .restartCompletionRing (given base 0 (record [(0, 0x14), (7, 2)])) (fun t =>
    lastRecord t = some (0x43, 0, 0, 0, 0)) = true := by decide +kernel

/-- SET TIMEBASE's example: INTERNAL, divisor 25,000, on a STOPPED Timebase: FREE_RUNNING (4 at bit 9), word A 0. -/
theorem test_setTimebase_example : after .setTimebase
    (given { at_ base 0 0 with timebase := Timebase.reset } 0 (record [(0, 0x18), (1, 2), (56, 25000)])) (fun t =>
    t.timebase.state = .freeRunning ∧ t.timebase.divisor = some 25000 ∧ lastRecord t = some (0, 0, 0, 0, 0) ∧ lastFlags t = some 2048) = true := by
  decide +kernel

/-- SET TIMEBASE's example: with a timer armed it is refused TIMERS_PRESENT. -/
theorem test_setTimebase_timers_present : after .setTimebase (given armed12 0 (record [(0, 0x18), (1, 2), (56, 25000)])) (fun t =>
    lastRecord t = some (0x51, 0, 0, 0, 0)) = true := by decide +kernel

/-! ### Domain commands -/

/-- CREATE DOMAIN's example. -/
theorem test_createDomain_example : after .createDomain (given base 0 (record [(0, 0x20), (6, 7), (56, 200)])) (fun t =>
    t.domain 7 = running 200 0 ∧ lastRecord t = some (0, 0, 0, 0, 0)) = true := by decide +kernel

/-- A second CREATE is answered DOMAIN_EXISTS. -/
theorem test_createDomain_exists : after .createDomain (given base 0 (record [(0, 0x20), (6, 3), (56, 200)])) (fun t =>
    (t.domain 3).quota = some 10 ∧ lastRecord t = some (0x21, 0, 0, 0, 0)) = true := by decide +kernel

/-- DESTROY DOMAIN's example: timers remain, without force. -/
theorem test_destroyDomain_not_empty : after .destroyDomain (given base 0 (record [(0, 0x21), (6, 3)])) (fun t =>
    (t.domain 3).state = .running ∧ lastRecord t = some (0x24, 0, 0, 0, 0)) = true := by decide +kernel

/-- DESTROY DOMAIN's example: with force it is accepted as a job, and no completion is written yet. -/
theorem test_destroyDomain_force : after .destroyDomain (given base 0 (record [(0, 0x21), (2, 4), (6, 3)])) (fun t =>
    (t.domain 3).state = .destroying ∧ ((t.domain 3).walk).map (fun w => w.position) = some 0 ∧ t.executor.state = .idle ∧
      lastRecord t = none) = true := by decide +kernel

/-- PAUSE DOMAIN's example: N = 1,800. -/
theorem test_pauseDomain_example :
    let s (n : Nat) := (at_ base n n).updateDomain 9 (fun _ => running 100 3)
    let r := record [(0, 0x22), (6, 9)]
    after .pauseDomain (given (s 1800) 0 r) (fun t => t.domain 9 = paused 1 1800 100 3 ∧ lastRecord t = some (0, 0, 1, 0, 0)) = true ∧
    after .pauseDomain (executing (s 1900) .ready 0 r 1800) (fun t => t.domain 9 = paused 1 1800 100 3) = true := by decide +kernel

/-- PAUSE DOMAIN's example: a fifth PAUSE is answered PAUSE_LIMIT. -/
theorem test_pauseDomain_limit : after .pauseDomain
    (given (base.updateDomain 9 (fun _ => paused 4 1800 100 3)) 0 (record [(0, 0x22), (6, 9)])) (fun t =>
    t.domain 9 = paused 4 1800 100 3 ∧ lastRecord t = some (0x25, 0, 0, 0, 0)) = true := by decide +kernel

/-- RESUME DOMAIN's example: entries 60 and 61 held, N = 3,320. -/
def held9 : State :=
  (withEntries (at_ base 3320 3320)
    [(60, 1, { oneshot 2000 with domain := 9, phase := .held }), (61, 1, { periodic 2100 500 with domain := 9, phase := .held })]).updateDomain 9
    (fun _ => { paused 1 1800 100 3 with held := [60, 61] })

/-- RESUME DOMAIN's example. -/
theorem test_resumeDomain_example : after .resumeDomain (given held9 0 (record [(0, 0x23), (6, 9)])) (fun t =>
    t.domain 9 = running 100 3 ∧ t.wheel.dueQueue = [60, 61] ∧ (t.entryAt 61).map (fun e => e.phase) = some .due ∧
      lastRecord t = some (0, 0, 0, 1520, 2)) = true := by decide +kernel

/-- Section 4.4's example: the resume of agent A lowers the depth to 1 and moves nothing. -/
theorem test_resumeDomain_nested : after .resumeDomain
    (given (held9.updateDomain 9 (fun d => { d with pauseDepth := 2 })) 0 (record [(0, 0x23), (6, 9)])) (fun t =>
    (t.domain 9).held = [60, 61] ∧ (t.domain 9).state = .paused ∧ lastRecord t = some (0, 0, 1, 0, 0)) = true := by decide +kernel

/-! ### Transfer commands -/

/-- Domain 5, PAUSED at depth 1, with three entries. -/
def exporting5 : State := (at_ base 40000 40000).updateDomain 5 (fun _ => paused 1 30000 100 3)

/-- EXPORT DOMAIN's example: 128 bytes are too few. -/
theorem test_exportDomain_small : after .exportDomain (given exporting5 0 (record [(0, 0x28), (6, 5), (40, 0x2000), (56, 128)])) (fun t =>
    t.transfer.job = none ∧ lastRecord t = some (0x68, 0, 0, 0, 0)) = true := by decide +kernel

/-- EXPORT DOMAIN's example: with 136 bytes it is accepted, and the header's write is issued: tag, version 1, domain 5, source 2, count 3, divisor
25,000, export start 40,000; and the header's words are summed. -/
theorem test_exportDomain_example : after .exportDomain (given exporting5 0 (record [(0, 0x28), (2, 8), (6, 5), (40, 0x2000), (56, 136)])) (fun t =>
    (t.domain 5).busy = .exporting ∧ lastRecord t = none ∧ t.host.dma = [.transferWrite true .header 0x2000#64 32
      (image [(0, 0x7E1640A5), (4, 1), (6, 5), (7, 2), (8, 3), (12, 25000), (16, 40000)])] ∧
      t.transfer.job.map (fun j => j.runningSum) = some (0x7E1640A5#32 + 0x02050001#32 + 3#32 + 25000#32 + 40000#32)) = true := by decide +kernel

/-- IMPORT DOMAIN into a PAUSED domain is accepted, and reads the 32-byte header. -/
theorem test_importDomain_accepted : after .importDomain
    (given exporting5 0 (record [(0, 0x29), (6, 5), (40, 0x2000), (48, 0x3000), (56, 136), (60, 12)])) (fun t =>
    (t.domain 5).busy = .importing ∧ t.host.dma = [.transferRead true .header 0x2000#64 32]) = true := by decide +kernel

/-- R131: on a STOPPED Timebase it is refused TIMEBASE_STOPPED. -/
theorem test_importDomain_stopped : after .importDomain
    (given { exporting5 with timebase := Timebase.reset } 0 (record [(0, 0x29), (6, 5), (40, 0x2000), (48, 0x3000), (56, 136), (60, 12)])) (fun t =>
    t.transfer.job = none ∧ lastRecord t = some (0x50, 0, 0, 0, 0)) = true := by decide +kernel

/-- A job of domain 8 in `stage`. -/
def job (stage : JobStage) : Job :=
  { stage := stage, domain := 8, bufferAddress := 0x2000#64, bufferLength := 136, handleAddress := 0x3000#64, handleLength := 12
    release := false, exportStart := 40000, recordCount := 3, position := 0, recordsDone := 0, runningSum := 0#32, pass1Sum := 0#32
    ticket := { source := 0, ring := 0, tag := 0x66#16 }, imageSource := 2#8, imageDivisor := 25000#32, illFormed := false
    ringRecords := Vector.replicate 8 0, ringHolds := Vector.replicate 8 0, creation := none }

/-- Domain 8 of the examples, busy with the job `j`, with `n` entries in use; N and W at 90,000. -/
def withJob (j : Job) (n : Nat) : State :=
  let busy : TransferBusy := if j.stage.kind = .exportJob then .exporting else .importing
  { (at_ base 90000 90000).updateDomain 8 (fun _ => { paused 1 80000 50 n with busy := busy }) with transfer := { job := some j } }

/-- ABORT TRANSFER's example, after the first creation: the rollback frees the created entry, returns the two units left, and the import's
completion comes before the ABORT's. -/
def afterOneCreation : State :=
  let s := withEntries (withJob { job .creating with recordsDone := 1, position := 1 } 13)
    [(12, 1, { oneshot 90500 with domain := 8, importMark := true, location := some (.slot 2 22) })]
  { s with wheel := s.wheel.append 12 (.slot 2 22), table := { s.table with reservation := 2, freeList := [40, 41, 42] } }

/-- ABORT TRANSFER's example. -/
theorem test_abortTransfer_example : after .abortTransfer (given afterOneCreation 0 (record [(0, 0x2A)])) (fun t =>
    t.table.reservation = 0 ∧ (t.domain 8).inUse = 10 ∧ (t.domain 8).busy = .none ∧ t.generationAt 12 = 2 ∧ t.transfer.job = none ∧
      (t.host.dma.length = 2) ∧ lastRecord t = some (0, 0, 0, 0, 0)) = true := by decide +kernel

/-- ABORT TRANSFER's example: without a job it is answered NO_TRANSFER. -/
theorem test_abortTransfer_none : after .abortTransfer (given base 0 (record [(0, 0x2A)])) (fun t =>
    lastRecord t = some (0x61, 0, 0, 0, 0)) = true := by decide +kernel

/-- Section 6.1's example: a kind that is none of the nineteen. -/
theorem test_invalidKind_example : after .invalidKind (given base 2 (record [(0, 0x07), (4, 0x1234)])) (fun t =>
    t.executor.input = none ∧ lastRecord t = some (0x10, 0, 0, 0, 0)) = true := by decide +kernel

/-- Section 6.1's example: SET TIMEBASE from SR2 is refused ADMIN_ONLY, before its divisor of 0 is looked at. -/
theorem test_setTimebase_admin_only : after .setTimebase (given base 2 (record [(0, 0x18), (1, 2)])) (fun t =>
    lastRecord t = some (0x12, 0, 0, 0, 0)) = true := by decide +kernel

/-- An ARM that waited for the mark of the head slot, now gone, is allocated with N as read at its take, 49,000. -/
def waitingArm : State :=
  { base with
    executor := { state := .waiting { ticket := { source := 2, ring := 2, tag := 0#16 }, record := armRecord, takenAt := 49000 }
                  input := none, held := none }
    table := { base.table with waiting := [.arm] } }

/-- R13, R106. -/
theorem test_allocation_after_waiting : after .allocation waitingArm (fun t =>
    (t.entryAt 12).map (fun e => e.deadline) = some 51500 ∧ t.executor.state = .idle ∧ t.table.waiting = []) = true := by decide +kernel

/-- R106, R171: the same in a device that has FAILED since: the claim is completed, its completion kept in the ring's queue. -/
theorem test_allocation_failed : after .allocation { waitingArm with host := { waitingArm.host with device := .failed } } (fun t =>
    (t.entryAt 12).isSome ∧ t.executor.state = .idle ∧ t.host.dma = [] ∧ (t.cr 2).queue.length = 1) = true := by decide +kernel

/-! ### The register window and the device states -/

/-- R135: a tail below the size is taken. -/
theorem test_srTailWrite_sets : after (.srTailWrite 2 9#32) base (fun t => (t.sr 2).tail = 9) = true := by decide +kernel

/-- R135: the size itself is a bad index. -/
theorem test_srTailWrite_bad_index : after (.srTailWrite 2 16#32) base (fun t =>
    (t.sr 2).state = .error ∧ (t.sr 2).cause = .badIndex ∧ t.poster.events.map (fun e => (e.kind, e.source)) = [(.ringError, .submissionRing 2)]) =
      true := by decide +kernel

/-- Section 8.10's example: size 16, head 10, 15 unconsumed. -/
def wrapRing : CompletionRing := { crActive 16 with head := 10, tail := 9, unconsumed := 15 }

/-- Section 8.10's example: writing 8 releases 14 records and leaves 14 free slots. -/
theorem test_crHeadWrite_example : after (.crHeadWrite 5 8#32) (base.updateCr 5 (fun _ => wrapRing)) (fun t =>
    (t.cr 5).head = 8 ∧ (t.cr 5).unconsumed = 1 ∧ (t.cr 5).freeSpace = 14) = true := by decide +kernel

/-- R155: a head that would release more than is unconsumed is a bad index. -/
theorem test_crHeadWrite_bad_index : after (.crHeadWrite 5 8#32) (base.updateCr 5 (fun _ => { wrapRing with unconsumed := 13 })) (fun t =>
    (t.cr 5).state = .error ∧ (t.cr 5).cause = .badIndex) = true := by decide +kernel

/-- Section 12.1, before step 3. -/
def configured : State :=
  { State.reset with host := { HostPort.reset with
      admin := { srBase := 0x10000#64, srSize := 64#32, crBase := 0x20000#64, crSize := 256#32, msgAddress := 0x100#64, msgData := 7#32 } } }

/-- Section 12.1, step 3: READY, SR0 and CR0 ACTIVE, free space 255. -/
theorem test_enableSet_bring_up : after .enableSet configured (fun t =>
    t.host.device = .ready ∧ (t.sr 0).state = .active ∧ (t.sr 0).size = 64 ∧ (t.cr 0).freeSpace = 255 ∧ (t.cr 0).phase = true) = true := by
  decide +kernel

/-- Section 12.1, first mistake: ENABLE before the configuration. -/
theorem test_enableSet_bad_config : after .enableSet State.reset (fun t =>
    t.host.device = .failed ∧ t.host.fatalCause = .badAdminConfig ∧ t.host.enable = true) = true := by decide +kernel

/-- R192: ENABLE written 0 in READY starts the drain. -/
theorem test_enableClear_stops : after .enableClear base (fun t => t.host.device = .stopping ∧ t.host.enable = false) = true := by decide +kernel

/-- R194: a device reset keeps the admin configuration registers. -/
theorem test_deviceReset_keeps_admin : after .deviceReset { configured with timebase := { Timebase.reset with time := 5 } } (fun t =>
    t.host.admin = configured.host.admin ∧ t.host.resetCause = .deviceReset ∧ t.timebase = Timebase.reset) = true := by decide +kernel

/-- R195: a power-on reset clears them. -/
theorem test_powerOnReset_clears_admin : after .powerOnReset configured (fun t =>
    t.host.admin = AdminRegisters.reset ∧ t.host.resetCause = .powerOn) = true := by decide +kernel

/-- Section 5.7's example: a low-word read at N = 0x1_FFFF_FFFF. -/
theorem test_deviceTimeLowRead_example : after (.deviceTimeLowRead 0x040 (.words 1)) (at_ base 0x1FFFFFFFF 0) (fun t =>
    t.host.readData = .words [0xFFFFFFFF#32] ∧ t.timebase.latch = 1#32) = true := by decide +kernel

/-- R197: a narrower read returns its bytes of the word and has the effects of a read of the whole word; a wider one is its words in ascending order. -/
theorem test_deviceTimeLowRead_widths :
    after (.deviceTimeLowRead 0x042 .half) (at_ base 0x512345678 0) (fun t => t.host.readData = .half 0x1234#16 ∧ t.timebase.latch = 5#32) = true ∧
    after (.deviceTimeLowRead 0x041 .byte) (at_ base 0x512345678 0) (fun t => t.host.readData = .byte 0x56#8 ∧ t.timebase.latch = 5#32) = true ∧
    after (.deviceTimeLowRead 0x041 .half) (at_ base 0x512345678 0) (fun t => t.host.readData = .half 0x3456#16 ∧ t.timebase.latch = 5#32) = true ∧
    after (.deviceTimeLowRead 0x041 .threeBytes) (at_ base 0x512345678 0) (fun t =>
      t.host.readData = .threeBytes 0x123456#24 ∧ t.timebase.latch = 5#32) = true ∧
    after (.deviceTimeLowRead 0x03C (.words 3)) (at_ base 0x512345678 0) (fun t =>
      t.host.readData = .words [0#32, 0x12345678#32, 5#32] ∧ t.timebase.latch = 5#32) = true := by decide +kernel

/-- R197: a 64-bit write is taken as two words in ascending address order. -/
theorem test_registerWrite_double : after (.registerWrite 0x010 (.words 2) [0x80000000#32, 4#32]) State.reset (fun t =>
    t.host.admin.srBase = 0x480000000#64) = true := by decide +kernel

/-- R197: a narrower write is ignored. -/
theorem test_registerWrite_narrow : after (.registerWrite 0x018 .byte [64#32]) State.reset (fun t => t.host.admin.srSize = 0#32) = true := by
  decide +kernel

/-- A STOPPING device with a write in flight. -/
def stopping : State := { base with host := { base.host with device := .stopping, enable := false, dma := [.messageWrite 2 0x900#64 0#32] } }

/-- R193: the drain is not complete while a write is in flight. -/
theorem test_disable_waits : after .disable stopping (fun t => t.host.device = .stopping) = true := by decide +kernel

/-- R193: with none, the device is DISABLED and every block at its disable values. -/
theorem test_disable_disables : after .disable { stopping with host := { stopping.host with dma := [] } } (fun t =>
    t.host.device = .disabled ∧ t.timebase = Timebase.reset ∧ t.poster = Poster.reset ∧ t.domain 3 = Domain.reset) = true := by decide +kernel

/-! ### Fetching -/

/-- Section 7.4's example before fetch 6, with the record on SR0: SR3 holds the grant with used count 2 of 3. -/
def weighted : State :=
  let ring (w head tail : Nat) : SubmissionRing := { srActive 2 with weight := w, head := head, tail := tail }
  let s := (base.updateSr 1 (fun _ => ring 2 2 5)).updateSr 2 (fun _ => ring 1 1 3)
  let s := (s.updateSr 3 (fun _ => ring 3 2 4)).updateSr 0 (fun _ => { srActive 0 with tail := 1 })
  { s with fetcher := { s.fetcher with grant := some 3, used := 2, grantWeight := 3 } }

/-- Section 7.4's example, fetch 6: SR0 is served, and SR3 keeps its grant. -/
theorem test_arbitration_admin_first : after .arbitration weighted (fun t =>
    t.fetcher.path = .reading { source := 0, headSlot := 0, ring := 0 } ∧ t.fetcher.grant = some 3 ∧ t.fetcher.used = 2 ∧
      (t.cr 0).reserved = 1 ∧ t.host.dma = [.fetchRead 0 0x40000#64]) = true := by decide +kernel

/-- Section 7.4's example, fetch 8: SR3's count is used up, so SR1 is served next. -/
theorem test_arbitration_next_ring : after .arbitration
    { weighted.updateSr 0 (fun r => { r with tail := 0 }) with fetcher := { (weighted.updateSr 0 (fun r => { r with tail := 0 })).fetcher with used := 3 } }
    (fun t => t.fetcher.path = .reading { source := 1, headSlot := 2, ring := 2 } ∧ t.fetcher.grant = some 1 ∧ t.fetcher.used = 1 ∧
      t.fetcher.grantWeight = 2 ∧ t.host.dma = [.fetchRead 1 0x40080#64]) = true := by decide +kernel

/-- CLOSE SUBMISSION RING's example: the record of slot 5 arrives; the head is 6. -/
theorem test_recordArrival_example : after (.recordArrival armRecord) (fetching3.updateSr 3 (fun r => { r with state := .closing })) (fun t =>
    (t.sr 3).state = .closing ∧ (t.sr 3).head = 6 ∧ t.executor.input = some { record := armRecord, source := 3, ring := 2 } ∧
      t.host.dma = []) = true := by decide +kernel

/-- R142: a failed read of an I/O ring returns the reservation, fails the ring and raises RING_ERROR; the head stays. -/
theorem test_readBusError_io : after .readBusError fetching3 (fun t =>
    (t.sr 3).state = .error ∧ (t.sr 3).cause = .busError ∧ (t.sr 3).head = 5 ∧ (t.cr 2).reserved = 0 ∧ t.fetcher.path = .idle ∧
      t.poster.events.map (fun e => (e.kind, e.cause)) = [(.ringError, .busError)]) = true := by decide +kernel

/-- R142, R191: a failed read of SR0 makes the device FAILED. -/
theorem test_readBusError_sr0 : after .readBusError
    { base with fetcher := { base.fetcher with path := .reading { source := 0, headSlot := 0, ring := 0 } } } (fun t =>
    t.host.device = .failed ∧ t.host.fatalCause = .sr0ReadError) = true := by decide +kernel

/-! ### Time -/

/-- Section 8.6's example: the tick at 1,150 ends the delay of 50, and the message covers one record. -/
theorem test_tickEvent_delay : after .tickEvent
    ((at_ base 1149 1149).updateCr 2 (fun c => { c with
      interrupts := true, moderationCount := 4, moderationDelay := 50, unnotified := 1, delayCount := some 49 })) (fun t =>
    t.timebase.time = 1150 ∧ (t.cr 2).unnotified = 0 ∧ (t.cr 2).delayCount = none ∧ t.host.dma = [.messageWrite 2 0x900#64 0#32]) = true := by
  decide +kernel

/-- Section 5.5's example: a REFERENCE of nominal period 400, divisor 1,000, run length sum 409,610. -/
def reference (state : TimebaseState) (n counter : Nat) : Timebase :=
  { Timebase.reset with
    time := n, state := state, source := .reference, divisor := some 1000, nominal := some 400, edgeCounter := counter
    equivalentStart := if state = .holdover then some 0 else none, measuredRatio := some 409610, lastEdge := some 0 }

/-- Section 2.8's example: a lag of 4,097 is an overrun. R93: in LOCKED N rises with the edges that are counted, not by itself. -/
theorem test_tickEvent_overrun : after .tickEvent (at_ base 14196 10100) (fun t =>
    t.wheel.overrun = true ∧ t.poster.events.map (fun e => (e.kind, e.raisedAt)) = [(.wheelOverrun, 14197)]) = true ∧
    after .tickEvent { base with timebase := reference .locked 5000 998 } (fun t => t.timebase.time = 5000) = true := by decide +kernel

/-- Section 5.5's example: the 1,000th edge makes a tick. -/
theorem test_refinEdge_tick : after (.refinEdge 400) { base with timebase := reference .locked 0 999 } (fun t =>
    t.timebase.time = 1 ∧ t.timebase.edgeCounter = 0 ∧ t.timebase.goodRunCount = 1) = true := by decide +kernel

/-- Section 5.5's example: an interval of 451 units is out of tolerance. -/
theorem test_refinEdge_out_of_tolerance : after (.refinEdge 451) { base with timebase := { reference .locked 0 0 with goodRunCount := 9 } } (fun t =>
    t.timebase.goodRunCount = 0 ∧ t.timebase.edgeCounter = 1) = true := by decide +kernel

/-- Section 5.5's example: at the loss the counter goes from 600 to 603, 399.970703125 units (in 1/1,024, 409,570) are carried, and the fourth
edge equivalent completes 0.0390625 units (40) after the loss. -/
theorem test_loss_example : after .loss { base with timebase := reference .locked 5000 600 } (fun t =>
    t.timebase.state = .holdover ∧ t.timebase.time = 5000 ∧ t.timebase.edgeCounter = 603 ∧ t.timebase.equivalentStart = some (1024 * 1600 - 409570) ∧
      t.timebase.equivalentEnd = 1024 * 1600 + 40 ∧
      t.poster.events.map (fun e => e.kind) = [.referenceLost]) = true := by decide +kernel

/-- R97: the edge that completes 1,024 intervals brings ACQUIRING to LOCKED. -/
theorem test_goodRun_locks : after (.goodRun 400)
    { base with timebase := { reference .acquiring 0 0 with measuredRatio := none, goodRunCount := 1023, runLengthSum := 409210 } } (fun t =>
    t.timebase.state = .locked ∧ t.timebase.edgeCounter = 0 ∧ t.timebase.measuredRatio = some 409610) = true := by decide +kernel

/-- Section 5.5's example: in HOLDOVER the counter keeps 317 and REFERENCE_RESTORED is raised. -/
theorem test_goodRun_restores : after (.goodRun 400)
    { base with timebase := { reference .holdover 8200 317 with goodRunCount := 1023, runLengthSum := 409210 } } (fun t =>
    t.timebase.state = .locked ∧ t.timebase.edgeCounter = 317 ∧ t.poster.events.map (fun e => e.kind) = [.referenceRestored]) = true := by
  decide +kernel

/-- Section 5.5's example: an edge equivalent in HOLDOVER counts as an edge; the next is reckoned from one ratio, 409,610/1,024 units, later. -/
theorem test_edgeEquivalent_tick : after .edgeEquivalent { base with timebase := reference .holdover 5000 999 } (fun t =>
    t.timebase.time = 5001 ∧ t.timebase.edgeCounter = 0 ∧ t.timebase.equivalentStart = some 409610) = true := by decide +kernel

/-! ### The Timing Wheel -/

/-- Section 2.5's example at wheel time `w`: the entry of slot 1 with `deadline` in place `l`. -/
def stepping (w : Nat) (step : Option WheelStep) (deadline : Nat) (l : Location) : State :=
  let s := withEntries (at_ base 20000000 w) [(1, 1, { oneshot deadline with location := some l })]
  { s with wheel := { s.wheel.append 1 l with step := step } }

/-- Section 2.3's example. -/
theorem test_placement_example :
    placement 100 100 = .dueQueue ∧ placement 100 120 = .slot 0 56 ∧ placement 100 128 = .slot 1 2 ∧ placement 100 4096 = .slot 2 1 ∧
      placement 100 5000 = .slot 2 1 ∧ placement 100 300000 = .slot 3 1 ∧ placement 100 16777221 = .overflow := by decide +kernel

/-- R32: a step sets W to W+1; at 16,777,216 the overflow list is to be swept. -/
theorem test_wheelStep_sweep : after .wheelStep (stepping 16777215 none 16777221 .overflow) (fun t =>
    t.wheel.time = 16777216 ∧ t.wheel.step = some { sweepLeft := 1 }) = true := by decide +kernel

/-- Section 2.5's example: the sweep at 16,777,216 moves deadline 16,777,221 to L0 slot 5. -/
theorem test_overflowSweep_example : after .overflowSweep (stepping 16777216 (some { sweepLeft := 1 }) 16777221 .overflow) (fun t =>
    t.wheelSlot 0 5 = [1] ∧ t.wheel.overflow = [] ∧ t.wheel.step = some { sweepLeft := 0 }) = true := by decide +kernel

/-- Section 2.5's example: the cascade of L2 slot 1 at 4,096 moves deadline 5,000 to L1 slot 14. -/
theorem test_cascade_example : after .cascade (stepping 4096 (some { sweepLeft := 0 }) 5000 (.slot 2 1)) (fun t =>
    t.wheelSlot 2 1 = [] ∧ t.wheelSlot 1 14 = [1]) = true := by decide +kernel

/-- Section 2.5's example: the cascade of L1 slot 2 at 128 makes deadline 128 due. -/
theorem test_cascade_due : after .cascade (stepping 128 (some { sweepLeft := 0 }) 128 (.slot 1 2)) (fun t =>
    t.wheel.dueQueue = [1] ∧ (t.entryAt 1).map (fun e => e.phase) = some .due) = true := by decide +kernel

/-- Section 2.5's example: the emptying of L0 slot 56 at 120. -/
theorem test_l0Emptying_example : after .l0Emptying (stepping 120 (some { sweepLeft := 0 }) 120 (.slot 0 56)) (fun t =>
    t.wheel.dueQueue = [1] ∧ t.wheelSlot 0 56 = [] ∧ (t.entryAt 1).map (fun e => e.phase) = some .due) = true := by decide +kernel

/-- Section 2.8's example: the step that ends with W = N clears the flag and raises WHEEL_CAUGHT_UP. -/
theorem test_stepEnd_caught_up : after .stepEnd
    { at_ base 19001 19001 with wheel := { (at_ base 19001 19001).wheel with overrun := true, step := some { sweepLeft := 0 } } } (fun t =>
    t.wheel.overrun = false ∧ t.wheel.step = none ∧ t.poster.events.map (fun e => e.kind) = [.wheelCaughtUp]) = true := by decide +kernel

/-- Section 2.8's example: one that ends with a lag of 1 does not. R43, R44: one that ends with W = N clears the flag in STOPPING, and keeps it in FAILED. -/
theorem test_stepEnd_still_behind :
    let ending (device : DeviceState) (w : Nat) : State := { at_ base 19001 w with
      host := { base.host with device := device }
      wheel := { (at_ base 19001 w).wheel with overrun := true, step := some { sweepLeft := 0 } } }
    after .stepEnd (ending .ready 19000) (fun t => t.wheel.overrun = true ∧ t.wheel.step = none ∧ t.poster.events = []) = true ∧
    after .stepEnd (ending .stopping 19001) (fun t => t.wheel.overrun = false ∧ t.wheel.step = none ∧ t.poster.events = []) = true ∧
    after .stepEnd (ending .failed 19001) (fun t => t.wheel.overrun = true ∧ t.wheel.step = none ∧ t.poster.events = []) = true := by
  decide +kernel

/-! ### Expiry -/

/-- `e` is DUE in slot 12, generation 4, at the head of the due queue, with N = W = `w`. -/
def due (w : Nat) (e : Entry) : State :=
  let s := withEntries (at_ base w w) [(12, 4, { e with phase := .due, location := some .dueQueue })]
  let s := (s.updateCr 2 (fun c => { c with bound := 1 })).updateDomain 3 (fun _ => running 10 1)
  { s with wheel := { s.wheel with dueQueue := [12] }, table := { s.table with freeList := [40, 41] } }

/-- Section 3.7's example: deadline 7,000, period 1,000, fire limit 2, taken at 10,450: k = 3, next deadline 11,000, record (1, 3, 7,000). -/
theorem test_take_periodic_example : after .take (due 10450 { periodic 7000 1000 with fireLimit := some 2 }) (fun t =>
    (t.entryAt 12).map (fun e => (e.phase, e.deadline, e.fireLimit, e.totalFires)) = some (.armed, 11000, some 1, 1) ∧
      lastRecord t = some (0, 0x4000C, 3, 0x7C10, 7000)) = true := by decide +kernel

/-- Section 3.4's example: a guard with the fault option trips at 20,000. -/
theorem test_take_guard_example : after .take (due 20000 (guardEntry 20000 500)) (fun t =>
    (t.entryAt 12).map (fun e => (e.phase, e.pendingExpiry)) = some (.tripped, none) ∧ t.faultOut = true ∧ t.expiry.faultTrips = 1 ∧
      lastRecord t = some (0, 0x4000C, 0, 0x7C10, 20000)) = true := by decide +kernel

/-! ### Notification -/

/-- Section 12.3's example after the take of 40 at 1,100, with one record released: entry 40 waits with fire count 3 and latest deadline 1,100. -/
def deferred40 : State :=
  let s := withEntries (at_ base 1100 1100)
    [(40, 1, { periodic 1150 50 with pendingExpiry := some { waitingFire 1100 with fireCount := 3 }, location := some (.slot 0 62) }),
     (41, 1, { periodic 1120 80 with pendingExpiry := some (waitingFire 1040), location := some (.slot 0 32) })]
  s.updateCr 2 (fun c => { c with unconsumed := 14, deferred := [40, 41] })

/-- Section 12.3's example: the drain writes 40's record, and the list is 41. -/
theorem test_drain_example : after (.drain 2) deferred40 (fun t =>
    (t.cr 2).deferred = [41] ∧ (t.cr 2).unconsumed = 15 ∧ (t.cr 2).freeSpace = 0 ∧ (t.entryAt 40).map (fun e => e.pendingExpiry) = some none ∧
      lastRecord t = some (0, 0x10028, 0, 0x7C10, 1100)) = true := by decide +kernel

/-- R159: without free space nothing is drained. -/
theorem test_drain_full : after (.drain 2) (deferred40.updateCr 2 (fun c => { c with unconsumed := 15 })) (fun t =>
    (t.cr 2).deferred = [40, 41] ∧ t.host.dma = []) = true := by decide +kernel

/-- R165, section 11.4: a WHEEL_OVERRUN event, raised twice, first at 14,197. -/
theorem test_eventPost_record : after .eventPost
    { base with poster := { base.poster with events :=
        [{ kind := .wheelOverrun, source := .timingWheel, cause := .none, occurrences := 2, raisedAt := 14197 }] } } (fun t =>
    t.poster.events = [] ∧ lastRecord t = some (0x83, 0, 0, 0, 14197)) = true := by decide +kernel

/-- R162: a count that has reached the moderation count sends the message. -/
theorem test_countTrigger_sends : after (.countTrigger 2)
    (base.updateCr 2 (fun c => { c with interrupts := true, moderationCount := 4, unnotified := 4 })) (fun t =>
    (t.cr 2).unnotified = 0 ∧ t.host.dma = [.messageWrite 2 0x900#64 0#32]) = true := by decide +kernel

/-- R162: a delay count below the moderation delay sends nothing. -/
theorem test_delayTrigger_waits : after (.delayTrigger 2)
    (base.updateCr 2 (fun c => { c with interrupts := true, moderationDelay := 50, unnotified := 1, delayCount := some 49 })) (fun t =>
    (t.cr 2).unnotified = 1 ∧ t.host.dma = []) = true := by decide +kernel

/-- Section 8.8's example, with ring 2 for 3: entry 70, a FIRED one-shot, was taken for writing into slot 8, and its write is in flight. -/
def writing70 : State :=
  let fired : Entry := { oneshot 500 with phase := .fired, totalFires := 1, pendingExpiry := some (waitingFire 500) }
  let row : TableRow :=
    { generation := 2, entry := none, mark := some { generation := 1, entry := fired, ring := 2, ringSlot := 8, write := 0 } }
  { base with
    table := { base.table with rows := [(70, row)], freeList := [40, 70] }
    poster := { base.poster with writes := 1 }
    host := { base.host with dma := [.recordWrite 2 8 0 0x900#64 0#256 (.expiry 70 1 (waitingFire 500))] } }

/-- R18, R161: the write's end removes the posting mark. -/
theorem test_writeDone_unmarks : after .writeDone writing70 (fun t =>
    t.rowAt 70 = { generation := 2, entry := none, mark := none } ∧ t.table.freeList = [40, 70] ∧ t.host.dma = []) = true := by decide +kernel

/-- Section 8.8's example: ERROR with BUS_ERROR, entry 70 restored FIRED at the front of the deferred list, restored run 1. -/
theorem test_writeFailed_restores : after .writeFailed writing70 (fun t =>
    (t.cr 2).state = .error ∧ (t.cr 2).cause = .busError ∧ (t.cr 2).deferred = [70] ∧ (t.cr 2).restoredRun = 1 ∧ t.generationAt 70 = 1 ∧
      (t.entryAt 70).map (fun e => e.phase) = some .fired ∧ t.markAt 70 = none ∧ t.table.freeList = [40] ∧ (t.domain 3).inUse = 5) = true := by
  decide +kernel

/-- R191: a failed write to CR0 makes the device FAILED. -/
theorem test_writeFailed_cr0 : after .writeFailed
    { base with host := { base.host with dma := [.recordWrite 0 3 0 0x900#64 0#256 .completion] } } (fun t =>
    t.host.device = .failed ∧ t.host.fatalCause = .cr0WriteError) = true := by decide +kernel

/-! ### Destroy walks -/

/-- Section 4.6's example: domain 12 is DESTROYING, its walk at slot 5,000, a TRIPPED guard whose GUARD_TRIP waits. -/
def destroying12 (position : Nat) : State :=
  let e : Entry :=
    { guardEntry 60000 100 with domain := 12, phase := .tripped, pendingExpiry := some { waitingFire 60000 with kind := .guardTrip } }
  let s := withEntries base [(5000, 1, e)]
  let s := (s.updateCr 2 (fun c => { c with deferred := [5000, 40], bound := 2 })).updateDomain 12 (fun _ => { running 50 2 with
    state := .destroying
    walk := some { position := position, walkCount := 1, discardCount := 1, ticket := { source := 0, ring := 0, tag := 0#16 } } })
  { s with expiry := { faultTrips := 1 } }

/-- Section 4.6's example: the guard is freed, its record withdrawn, FAULT_OUT deasserted. -/
theorem test_destroyWalkVisit_example : after (.destroyWalkVisit 12) (destroying12 5000) (fun t =>
    t.entryAt 5000 = none ∧ (t.cr 2).deferred = [40] ∧ t.faultOut = false ∧ (t.domain 12).inUse = 1 ∧
      ((t.domain 12).walk).map (fun w => (w.position, w.walkCount, w.discardCount)) = some (5001, 2, 1)) = true := by decide +kernel

/-- Section 4.6's example: at 16,384 the record is FREE; the count is the walk's and the discards' together. -/
theorem test_destroyWalkEnd_example : after (.destroyWalkEnd 12) (withEntries (destroying12 16384) []) (fun t =>
    t.domain 12 = Domain.reset ∧ lastRecord t = some (0, 0, 2, 0, 0)) = true := by decide +kernel

/-! ### The Transfer Unit's events -/

/-- Section 9.3's example: slot 120 is HELD at 39,000, period 1,000, total fires 6; its record carries HELD and −1,000. -/
theorem test_exportVisit_example : after .exportVisit
    (withEntries (withJob { job .writing with position := 120, recordsDone := 1 } 3)
      [(120, 1, { periodic 39000 1000 with domain := 8, phase := .held, totalFires := 6 })]) (fun t =>
    t.transfer.job.map (fun j => j.position) = some 121 ∧ t.host.dma = [.transferWrite true .entryRecord 0x2040#64 32
      (image [(0, 1), (1, 3), (3, 2), (8, 2 ^ 64 - 1000), (16, 1000), (20, 6), (24, 0x7C10)])]) = true := by decide +kernel

/-- R177: after the last record the trailer is written, at byte 128 of an image of three: the running sum and the count. -/
theorem test_transferWriteDone_trailer : after .transferWriteDone
    ((withJob { job .writing with position := 16384, recordsDone := 2, runningSum := 0xABCD#32 } 3).pushDma
      (.transferWrite true .entryRecord 0x2060#64 32 0#256)) (fun t =>
    t.host.dma = [.transferWrite true .trailer 0x2080#64 8 (image [(0, 0xABCD), (4, 3)])]) = true := by decide +kernel

/-- R179: the release frees the exported set, and the completion's word A is the checksum. -/
theorem test_exportRelease_frees : after .exportRelease
    (withEntries (withJob { job .releasing with release := true, recordCount := 1, recordsDone := 1, runningSum := 0x77#32 } 1)
      [(7, 9, { oneshot 95000 with domain := 8, phase := .held })]) (fun t =>
    t.generationAt 7 = 10 ∧ (t.domain 8).inUse = 0 ∧ (t.domain 8).busy = .none ∧ t.transfer.job = none ∧
      lastRecord t = some (0, 0, 1, 0x77, 0)) = true := by decide +kernel

/-- R180: a header with a wrong tag ends the job IMAGE_FORMAT. -/
theorem test_transferReadDone_bad_header : after (.transferReadDone (image [(0, 0x7E1640A6), (4, 1), (8, 3)]))
    ((withJob (job .verifying) 10).pushDma (.transferRead true .header 0x2000#64 32)) (fun t =>
    t.transfer.job = none ∧ (t.domain 8).busy = .none ∧ lastRecord t = some (0x62, 0, 0, 0, 0)) = true := by decide +kernel

/-- R180: a good header lets pass 1 read the first record. -/
theorem test_transferReadDone_header :
    after (.transferReadDone (image [(0, 0x7E1640A5), (4, 1), (6, 5), (7, 2), (8, 3), (12, 25000), (16, 40000)]))
    ((withJob (job .verifying) 10).pushDma (.transferRead true .header 0x2000#64 32)) (fun t =>
    t.transfer.job.map (fun j => j.recordCount) = some 3 ∧ t.host.dma = [.transferRead true .entryRecord 0x2020#64 32]) = true := by
  decide +kernel

/-- Section 9.4's example: the reservation is made, and record `r` is to be created in slot 300. -/
def creating (r : RecordBits) : State :=
  let s := withEntries (withJob { job .creating with creation := some r, position := 1 } 13) []
  { s with table := { s.table with freeList := [300, 301, 302], reservation := 3 } }

/-- Section 9.4's example: record 0 (offset 500) becomes entry 300, ARMED, in L2 slot 22, and its handle is written. -/
theorem test_importCreation_armed : after .importCreation (creating (image [(1, 1), (3, 2), (8, 500)])) (fun t =>
    t.wheelSlot 2 22 = [300] ∧ (t.entryAt 300).map (fun e => (e.phase, e.deadline)) = some (.armed, 90500) ∧ t.table.reservation = 2 ∧
      (t.domain 8).inUse = 13 ∧ t.host.dma = [.transferWrite true .handle 0x3000#64 4 0x1012C#256]) = true := by decide +kernel

/-- Section 9.4's example: record 1 (offset −1,000) is HELD. -/
theorem test_importCreation_held : after .importCreation
    (creating (image [(0, 1), (1, 3), (3, 2), (8, 2 ^ 64 - 1000), (16, 1000), (20, 6)])) (fun t =>
    (t.domain 8).held = [300] ∧ (t.entryAt 300).map (fun e => (e.phase, e.deadline)) = some (.held, 89000)) = true := by decide +kernel

/-- R187: a bus error of an export's write ends the job BUS_ERROR with its records done. -/
theorem test_transferBusError_export : after .transferBusError
    ((withJob { job .writing with recordsDone := 2, position := 5 } 3).pushDma (.transferWrite true .entryRecord 0x2060#64 32 0#256)) (fun t =>
    t.transfer.job = none ∧ (t.domain 8).busy = .none ∧ lastRecord t = some (0x66, 0, 2, 0, 0)) = true := by decide +kernel

/-! ### Witnesses: the hypotheses of the statements can be met

Each theorem is named after its statement, and shows, clause by clause, states and operands that meet the hypotheses, at the ends of their ranges. -/

/-- `State.Takes`, as a test that runs. -/
theorem takes_of {s : State} {k : CommandKind} {w : Taken} (h : (s.inHand == some w && kindOf w.record == some k) = true) : s.Takes k w := by
  simp only [Bool.and_eq_true, beq_iff_eq] at h
  exact h

/-- `State.Accepts`, as a test that runs. -/
theorem accepts_of {s : State} {k : CommandKind} {w : Taken}
    (h : (s.inHand == some w && kindOf w.record == some k && (!k.adminOnly || w.ticket.source == 0) &&
      k.fieldsBad w.record w.takenAt == false) = true) : s.Accepts k w := by
  simp only [Bool.and_eq_true, beq_iff_eq, Bool.or_eq_true, Bool.not_eq_true'] at h
  refine ⟨⟨h.1.1.1, h.1.1.2⟩, fun ha => ?_, h.2⟩
  rcases h.1.2 with hb | hb
  · rw [ha] at hb; cases hb
  · exact hb

theorem witness_StepRunsFront : State.reset.pending = [] := rfl

/-- A device at work whose whole free list is there: slot 0 holds `e`, every other slot is FREE; a REARM of slot 0 is next. -/
def liveWith (e : Entry) : State :=
  let s := withEntries base [(0, 1, e)]
  let s := given s 2 (record [(0, 0x02), (12, 0x10000), (16, 50100)])
  { s with
    wheel := s.wheel.append 0 (.slot 1 52)
    table := { s.table with freeList := List.range' 1 16383 }
    pending := [.rearm] }

theorem liveWith_table (e : Entry) : (liveWith e).TableLegal := by
  have hr : (liveWith e).table.rows = [(0, { generation := 1, entry := some e, mark := none })] := rfl
  refine ⟨?_, ?_, List.nodup_range', fun k => ?_⟩
  · simp [State.Canonical, TimerTable.wf, hr, TimerTable.wfRows, TableRow.fresh]
  · simp [hr, Config.tableSize]
  · have hf : (liveWith e).table.freeList = List.range' 1 16383 := rfl
    have he : (liveWith e).entryAt k = if 0 = k then some e else none := by
      rw [State.entryAt, State.rowAt, hr, lookupRow, lookupRow]
      split <;> rfl
    rw [hf, he, List.mem_range'_1, Config.tableSize]
    split <;> simp <;> omega

/-- Its entry is ARMED. -/
def live : State := liveWith { oneshot 52500 with location := some (.slot 1 52) }

theorem live_table : live.TableLegal := liveWith_table _

theorem live_entries : live.EntriesLegal := by
  have hi : live.executor.state = .idle := rfl
  refine ⟨by decide +kernel, by decide +kernel, fun j r h => ?_, fun w h => ?_, fun w h => ?_⟩
  · have hn : live.transfer.job = none := rfl
    rw [hn] at h
    cases h
  · rw [hi] at h
    cases h
  · rw [hi] at h
    cases h

theorem witness_TableStaysLegal : live.TableLegal ∧ ∃ t, step live = .next t := ⟨live_table, _, rfl⟩

/-- The same of a state whose executor is WAITING with an ARM that has passed its field checks, its ALLOCATION next. -/
theorem witness_EntriesStayLegal : (live.EntriesLegal ∧ ∃ t, step live = .next t) ∧
    ({ waitingArm with pending := [.allocation] } : State).EntriesLegal ∧ armFieldsBad armRecord 49000 = false := by
  refine ⟨⟨live_entries, _, rfl⟩, ⟨by decide +kernel, by decide +kernel, fun j r h => ?_, fun w h => ?_, fun w h => ?_⟩, by decide +kernel⟩
  · cases h
  · cases h
    decide +kernel
  · cases h

theorem witness_DomainsStayLegal : live.DomainsLegal ∧ ∃ t, step live = .next t :=
  ⟨by unfold State.DomainsLegal; decide +kernel, _, rfl⟩

theorem witness_WheelStaysBehind : live.WheelBehind ∧ ∃ t, step live = .next t :=
  ⟨by unfold State.WheelBehind; decide +kernel, _, rfl⟩

theorem witness_TimebaseStaysLegal : live.TimebaseLegal ∧ ∃ t, step live = .next t :=
  ⟨by unfold State.TimebaseLegal; decide +kernel, _, rfl⟩

theorem witness_RingsStayLegal : live.RingsLegal ∧ ∃ t, step live = .next t :=
  ⟨by unfold State.RingsLegal; decide +kernel, _, rfl⟩

theorem witness_EventsStayLegal : live.EventsLegal ∧ ∃ t, step live = .next t :=
  ⟨by unfold State.EventsLegal; decide +kernel, _, rfl⟩

/-- In a DISABLED device the invariant says something: the state after the power-on reset, with a read of DEVICE_TIME next. -/
theorem witness_DisabledStaysEmpty :
    ({ State.reset with pending := [.deviceTimeLowRead 0x040 (.words 1)] } : State).DisabledEmpty ∧ State.reset.host.device = .disabled ∧
      ∃ t, step { State.reset with pending := [.deviceTimeLowRead 0x040 (.words 1)] } = .next t := by
  refine ⟨fun _ => ?_, rfl, _, rfl⟩
  simp only [State.reset, HostPort.reset, Timebase.reset, and_self]

theorem witness_OneAtATimeStays : live.OneAtATime ∧ ∃ t, step live = .next t := by
  refine ⟨⟨by decide +kernel, by decide +kernel, fun j h => ?_⟩, _, rfl⟩
  have hn : live.transfer.job = none := rfl
  rw [hn] at h
  cases h

/-- The REARM of `live` leaves the entry in use under its generation. -/
theorem witness_IdentityFieldsKept : live.TableLegal ∧ live.EntriesLegal ∧ (live.entryAt 0).isSome = true ∧
    after .rearm live (fun t => (t.entryAt 0).isSome ∧ t.generationAt 0 = live.generationAt 0 ∧ t.entryAt 0 ≠ live.entryAt 0) = true :=
  ⟨live_table, live_entries, by decide +kernel, by decide +kernel⟩

theorem witness_NoNewRequestOutsideReady : stopping.host.device ≠ .ready ∧ ∃ t, exec .writeDone stopping = .next t :=
  ⟨by decide, _, rfl⟩

theorem witness_PlacementByAgreement : (100 : Nat) ≤ 100 ∧ (100 : Nat) < 101 := by decide

/-- The three clauses: an ACTIVE source ring, in READY and outside; a CLOSING one without, and with, a completion held for it. -/
theorem witness_CommandEndHandsCompletion :
    let closing := fetching3.updateSr 3 (fun r => { r with state := .closing })
    let held : State := { closing with executor := { closing.executor with
      held := some { closing := 3, ring := 0, completion := ({ status := .success } : Reply).completion { source := 0, ring := 0, tag := 0#16 } } } }
    (base.host.device = .ready ∧ (base.sr 2).state ≠ .closing) ∧ (stopping.host.device ≠ .ready ∧ (stopping.sr 2).state ≠ .closing) ∧
      ((closing.sr 3).state = .closing ∧ closing.executor.held = none) ∧
      ((held.sr 3).state = .closing ∧ held.executor.held.isSome = true) := by decide +kernel

/-- A record that may be taken; one that may not while a completion is held for another ring; an EXECUTING command; each refusal; and, in legal
states, the four kinds whose take and claim are one step. -/
theorem witness_EarlyRefusals :
    let invalid := record [(0, 0x07)]
    let set := record [(0, 0x18)]
    let waits := given fetching3 2 invalid
    let held : State := { waits with executor := { waits.executor with
      held := some { closing := 3, ring := 0, completion := ({ status := .success } : Reply).completion { source := 0, ring := 0, tag := 0#16 } } } }
    ((given base 2 invalid).takeable = some { record := invalid, source := 2, ring := 2 }) ∧
    (held.takeable = none ∧ waits.takeable = some { record := invalid, source := 2, ring := 2 }) ∧
    ((executing base .stopping 2 invalid).takeable = none ∧ (executing base .stopping 2 invalid).inHand = some (taken 2 invalid)) ∧
    ((given base 2 invalid).inHand = some (taken 2 invalid) ∧ kindOf invalid = none) ∧
    (∀ w, base.inHand = some w → kindOf w.record ≠ none) ∧ (∀ w, ¬ base.Takes .arm w) ∧
    ((given base 2 set).Takes .setTimebase (taken 2 set) ∧ CommandKind.setTimebase.adminOnly = true ∧ (taken 2 set).ticket.source ≠ 0) ∧
    ((given base 0 set).Takes .setTimebase (taken 0 set) ∧ (CommandKind.setTimebase.adminOnly = true → (taken 0 set).ticket.source = 0) ∧
      CommandKind.setTimebase.fieldsBad set (taken 0 set).takenAt = true) ∧
    ((given base 2 (record [(0, 0x04)])).Takes .kick (taken 2 (record [(0, 0x04)])) ∧ (given base 2 (record [(0, 0x04)])).EntriesLegal) ∧
    ((given base 2 (record [(0, 0x06)])).Takes .readStatus (taken 2 (record [(0, 0x06)])) ∧ (given base 2 (record [(0, 0x06)])).EntriesLegal) ∧
    ((given base 0 (record [(0, 0x22)])).Takes .pauseDomain (taken 0 (record [(0, 0x22)])) ∧ (given base 0 (record [(0, 0x22)])).EntriesLegal) ∧
    (given base 0 (record [(0, 0x23)])).Takes .resumeDomain (taken 0 (record [(0, 0x23)])) ∧ (given base 0 (record [(0, 0x23)])).EntriesLegal := by
  have hn : base.inHand = none := by decide +kernel
  have legal : ∀ (i : Fin 8) (r : CommandBits), (given base i r).EntriesLegal := fun i r =>
    ⟨show ∀ p ∈ base.table.rows, p.2.legal = true by decide +kernel, show ∀ q ∈ base.host.dma, q.legal = true by decide +kernel, fun j c hj => (by cases hj), fun w hw => (by cases hw), fun w hw => (by cases hw)⟩
  refine ⟨by decide +kernel, by decide +kernel, by decide +kernel, by decide +kernel, fun w h => ?_, fun w h => ?_,
    ⟨takes_of (by decide +kernel), by decide +kernel⟩, ⟨takes_of (by decide +kernel), by decide +kernel, by decide +kernel⟩,
    ⟨takes_of (by decide +kernel), legal _ _⟩, ⟨takes_of (by decide +kernel), legal _ _⟩, ⟨takes_of (by decide +kernel), legal _ _⟩,
    takes_of (by decide +kernel), legal _ _⟩
  · rw [hn] at h; cases h
  · have h1 := h.1
    rw [hn] at h1; cases h1

/-! #### Timer commands -/

/-- An ARM into the last unit of its domain's quota, and one that finds the quota used up. -/
theorem witness_ArmCreatesEntry :
    let room := given (base.updateDomain 3 (fun _ => running 10 9)) 2 armRecord
    let full := given (base.updateDomain 3 (fun _ => running 10 10)) 2 armRecord
    (room.Accepts .arm (taken 2 armRecord) ∧ room.headMarked = false ∧ room.table.waiting = [] ∧
      TimerKind.ofCode (recTimerKind armRecord).toNat = some .periodic ∧ (room.domain 3).inUse + room.marksNaming 3 + 1 = 10 ∧
      room.table.reservation < room.unmarkedFree) ∧
    (full.Accepts .arm (taken 2 armRecord) ∧ full.headMarked = false ∧ full.table.waiting = [] ∧
      (full.domain 3).quota.getD 0 < (full.domain 3).inUse + full.marksNaming 3 + 1) :=
  ⟨⟨accepts_of (by decide +kernel), by decide +kernel⟩, ⟨accepts_of (by decide +kernel), by decide +kernel⟩⟩

/-- `base` with slot 12, the head of the free list, marked. -/
def markedHead : State :=
  let fired : Entry := { oneshot 500 with phase := .fired, pendingExpiry := some (waitingFire 500) }
  let mark : PostingMark := { generation := 4, entry := fired, ring := 2, ringSlot := 0, write := 0 }
  { base with table := { base.table with rows := [(12, { generation := 5, entry := none, mark := some mark })] } }

/-- An ARM that begins to wait; an ALLOCATION that still has to; one that succeeds, and one that is refused. -/
theorem witness_WaitingArmIsAllocated :
    let waits := given markedHead 2 armRecord
    let refused := waitingArm.updateDomain 3 (fun _ => running 10 10)
    (waits.Accepts .arm (taken 2 armRecord) ∧ waits.headMarked = true) ∧
    (markedHead.headMarked = true) ∧
    (waitingArm.executor.state = .waiting
        { ticket := { source := 2, ring := 2, tag := 0#16 }, record := armRecord, takenAt := 49000 } ∧ waitingArm.headMarked = false ∧
      waitingArm.table.waiting = [.arm] ∧ TimerKind.ofCode (recTimerKind armRecord).toNat = some .periodic ∧
      (waitingArm.domain 3).inUse + waitingArm.marksNaming 3 + 1 ≤ 10 ∧ waitingArm.table.reservation < waitingArm.unmarkedFree) ∧
    (refused.headMarked = false ∧ refused.table.waiting = [.arm] ∧
      (refused.domain 3).quota.getD 0 < (refused.domain 3).inUse + 1) :=
  ⟨⟨accepts_of (by decide +kernel), by decide +kernel⟩, by decide +kernel, by decide +kernel, by decide +kernel⟩

/-- A stale handle; a matched entry that is replaced; and one, FIRED, that is too late. -/
theorem witness_RearmReplacesEntry :
    let r := record [(0, 0x02), (12, 0x4000C), (16, 50100)]
    let stale := record [(0, 0x02), (12, 0x3000C), (16, 50100)]
    let fired := withEntries base [(12, 4, { oneshot 500 with phase := .fired, pendingExpiry := some (waitingFire 500) })]
    ((given armed12 2 stale).Accepts .rearm (taken 2 stale 50040) ∧ (given armed12 2 stale).generationAt 12 ≠ handleGeneration (recHandle stale)) ∧
    ((given armed12 2 r).Accepts .rearm (taken 2 r 50040) ∧ ((given armed12 2 r).entryAt 12).map (fun e => e.phase) = some .armed ∧
      (given armed12 2 r).generationAt 12 = handleGeneration (recHandle r) ∧ ((given armed12 2 r).domain 3).isBusy = false) ∧
    ((given fired 2 r).Accepts .rearm (taken 2 r) ∧ ((given fired 2 r).entryAt 12).map (fun e => e.phase) = some .fired ∧
      (given fired 2 r).generationAt 12 = handleGeneration (recHandle r)) :=
  ⟨⟨accepts_of (by decide +kernel), by decide +kernel⟩, ⟨accepts_of (by decide +kernel), by decide +kernel⟩,
    ⟨accepts_of (by decide +kernel), by decide +kernel⟩⟩

/-- A FREE slot; a busy domain; and an entry that is freed. -/
theorem witness_CancelFreesEntry :
    let r := record [(0, 0x03), (12, 0x4000C)]
    let busy := armed12.updateDomain 3 (fun _ => { paused 1 0 10 5 with busy := .exporting })
    ((given base 2 r).Accepts .cancel (taken 2 r) ∧ (given base 2 r).entryAt 12 = none) ∧
    ((given busy 2 r).Accepts .cancel (taken 2 r 50040) ∧ ((given busy 2 r).entryAt 12).isSome = true ∧
      (given busy 2 r).generationAt 12 = handleGeneration (recHandle r) ∧ ((given busy 2 r).domain 3).isBusy = true) ∧
    ((given armed12 2 r).Accepts .cancel (taken 2 r 50040) ∧ ((given armed12 2 r).entryAt 12).isSome = true ∧
      (given armed12 2 r).generationAt 12 = handleGeneration (recHandle r) ∧ ((given armed12 2 r).domain 3).isBusy = false) :=
  ⟨⟨accepts_of (by decide +kernel), by decide +kernel⟩, ⟨accepts_of (by decide +kernel), by decide +kernel⟩,
    ⟨accepts_of (by decide +kernel), by decide +kernel⟩⟩

/-- A FREE slot; a guard that is kicked, its deadline just a tick value; and one whose deadline would pass 2^64 − 1; and the guard of KICK's example, in a legal
state with N equal to W. -/
theorem witness_KickPostponesGuard :
    let r := record [(0, 0x04), (12, 0x2004D)]
    let last := at_ tripped77 (2 ^ 64 - 1 - 300) 9020
    let beyond := at_ tripped77 (2 ^ 64 - 300) 9020
    ((given base 2 r).Accepts .kick (taken 2 r) ∧ (given base 2 r).entryAt 77 = none) ∧
    ((given last 2 r).Accepts .kick (taken 2 r (2 ^ 64 - 1 - 300)) ∧ ((given last 2 r).entryAt 77).map (fun e => e.kind) = some .guard ∧
      (given last 2 r).generationAt 77 = handleGeneration (recHandle r) ∧ ((given last 2 r).domain 3).isBusy = false ∧
      last.timebase.time + 300 = 2 ^ 64 - 1) ∧
    ((given beyond 2 r).Accepts .kick (taken 2 r (2 ^ 64 - 300)) ∧ ((given beyond 2 r).entryAt 77).map (fun e => e.kind) = some .guard ∧
      (given beyond 2 r).generationAt 77 = handleGeneration (recHandle r) ∧ 2 ^ 64 - 1 < beyond.timebase.time + 300) ∧
    ((given tripped77 2 r).Accepts .kick (taken 2 r 9020) ∧ (given tripped77 2 r).EntriesLegal ∧ (given tripped77 2 r).WheelBehind ∧
      tripped77.wheel.time = tripped77.timebase.time) := by
  refine ⟨⟨accepts_of (by decide +kernel), by decide +kernel⟩, ⟨accepts_of (by decide +kernel), by decide +kernel⟩,
    ⟨accepts_of (by decide +kernel), by decide +kernel⟩, accepts_of (by decide +kernel),
    ⟨by decide +kernel, by decide +kernel, fun j r h => ?_, fun w h => ?_, fun w h => ?_⟩, by unfold State.WheelBehind; decide +kernel, rfl⟩ <;> cases h

/-- A QUERY that matches, one that does not, and a READ STATUS. -/
theorem witness_QueryAndReadStatusReport :
    let r := record [(0, 0x05), (12, 0x4000C)]
    ((given base 2 r).Accepts .query (taken 2 r) ∧ (given base 2 r).entryAt 12 = none) ∧
    ((given armed12 2 r).Accepts .query (taken 2 r 50040) ∧ ((given armed12 2 r).entryAt 12).isSome = true ∧
      (given armed12 2 r).generationAt 12 = handleGeneration (recHandle r)) ∧
    (given base 2 (record [(0, 0x06)])).Accepts .readStatus (taken 2 (record [(0, 0x06)])) :=
  ⟨⟨accepts_of (by decide +kernel), by decide +kernel⟩, ⟨accepts_of (by decide +kernel), by decide +kernel⟩, accepts_of (by decide +kernel)⟩

/-! #### Ring commands and SET TIMEBASE -/

/-- A ring that is open already; a CLOSED paired ring; and an open that succeeds. -/
theorem witness_OpenSubmissionRingOpens :
    let r (ring pair : Nat) := record [(0, 0x10), (7, ring), (8, pair), (9, 16), (40, 0x480000000), (56, 4096)]
    ((given base 0 (r 2 2)).Accepts .openSubmissionRing (taken 0 (r 2 2)) ∧ (base.sr 2).state ≠ .closed) ∧
    ((given base 0 (r 7 5)).Accepts .openSubmissionRing (taken 0 (r 7 5)) ∧ (base.sr 7).state = .closed ∧ (base.cr 5).state = .closed) ∧
    ((given base 0 (r 7 2)).Accepts .openSubmissionRing (taken 0 (r 7 2)) ∧ (base.sr 7).state = .closed ∧ (base.cr 2).state ≠ .closed) :=
  ⟨⟨accepts_of (by decide +kernel), by decide +kernel⟩, ⟨accepts_of (by decide +kernel), by decide +kernel⟩,
    ⟨accepts_of (by decide +kernel), by decide +kernel⟩⟩

/-- A CLOSED ring; an ACTIVE one with its fetch in flight; an ACTIVE one without. -/
theorem witness_CloseSubmissionRingCloses :
    let r (ring : Nat) := record [(0, 0x11), (7, ring)]
    let fetching := executing fetching3 .ready 0 (r 3)
    ((given base 0 (r 7)).Accepts .closeSubmissionRing (taken 0 (r 7)) ∧ (base.sr 7).state = .closed) ∧
    (fetching.Accepts .closeSubmissionRing (taken 0 (r 3)) ∧ (fetching.sr 3).state = .active ∧
      fetching.takeRecord.fetcher.path.source = some 3) ∧
    ((given base 0 (r 2)).Accepts .closeSubmissionRing (taken 0 (r 2)) ∧ (base.sr 2).state = .active ∧
      ¬ (given base 0 (r 2)).takeRecord.fetcher.path.source = some 2) :=
  ⟨⟨accepts_of (by decide +kernel), by decide +kernel⟩, ⟨accepts_of (by decide +kernel), by decide +kernel⟩,
    ⟨accepts_of (by decide +kernel), by decide +kernel⟩⟩

/-- OPEN: an open ring, a CLOSED one. CLOSE: a CLOSED one, one that is paired with, one that nothing uses. -/
theorem witness_CompletionRingsOpenAndClose :
    let o (ring : Nat) := record [(0, 0x12), (7, ring), (10, 1), (38, 1023), (40, 0x480100000), (48, 0x1004), (56, 16)]
    let c (ring : Nat) := record [(0, 0x13), (7, ring)]
    let free := base.updateCr 4 (fun _ => crActive 16)
    ((given base 0 (o 2)).Accepts .openCompletionRing (taken 0 (o 2)) ∧ (base.cr 2).state ≠ .closed) ∧
    ((given base 0 (o 7)).Accepts .openCompletionRing (taken 0 (o 7)) ∧ (base.cr 7).state = .closed) ∧
    ((given base 0 (c 7)).Accepts .closeCompletionRing (taken 0 (c 7)) ∧ (base.cr 7).state = .closed) ∧
    ((given base 0 (c 2)).Accepts .closeCompletionRing (taken 0 (c 2)) ∧ (base.cr 2).state ≠ .closed ∧ (base.sr 2).paired = 2 ∧
      (base.sr 2).state ≠ .closed) ∧
    ((given free 0 (c 4)).Accepts .closeCompletionRing (taken 0 (c 4)) ∧ (free.cr 4).state ≠ .closed ∧
      (∀ i, (free.sr i).state = .closed ∨ (free.sr i).paired ≠ 4) ∧ (free.cr 4).bound = 0 ∧ free.marks = [] ∧ (free.cr 4).deferred = [] ∧
      (free.cr 4).reserved = 0 ∧ free.host.dma = [] ∧ free.transfer.job = none) :=
  ⟨⟨accepts_of (by decide +kernel), by decide +kernel⟩, ⟨accepts_of (by decide +kernel), by decide +kernel⟩,
    ⟨accepts_of (by decide +kernel), by decide +kernel⟩, ⟨accepts_of (by decide +kernel), by decide +kernel⟩,
    ⟨accepts_of (by decide +kernel), by decide +kernel⟩⟩

/-- A CLOSED ring, an ACTIVE one, and one in ERROR, in READY and in a device that has FAILED since the take. -/
theorem witness_RestartReopensRing :
    let r (ring : Nat) := record [(0, 0x14), (7, ring)]
    let failed := given (base.updateCr 2 (fun _ => failedRing)) 0 (r 2)
    ((given base 0 (r 7)).Accepts .restartCompletionRing (taken 0 (r 7)) ∧ ((given base 0 (r 7)).cr 7).state = .closed) ∧
    ((given base 0 (r 2)).Accepts .restartCompletionRing (taken 0 (r 2)) ∧ ((given base 0 (r 2)).cr 2).state = .active) ∧
    (failed.Accepts .restartCompletionRing (taken 0 (r 2)) ∧ (failed.cr 2).state = .error ∧ failed.host.device = .ready) ∧
    ((executing (base.updateCr 2 (fun _ => failedRing)) .failed 0 (r 2)).Accepts .restartCompletionRing (taken 0 (r 2)) ∧
      ((executing (base.updateCr 2 (fun _ => failedRing)) .failed 0 (r 2)).cr 2).state = .error) :=
  ⟨⟨accepts_of (by decide +kernel), by decide +kernel⟩, ⟨accepts_of (by decide +kernel), by decide +kernel⟩,
    ⟨accepts_of (by decide +kernel), by decide +kernel⟩, ⟨accepts_of (by decide +kernel), by decide +kernel⟩⟩

/-- A timer is armed; none is, with the shortest nominal period and with the oscillator. -/
theorem witness_SetTimebaseSets :
    let reference := record [(0, 0x18), (1, 1), (56, 1048576), (60, 32)]
    let oscillator := record [(0, 0x18), (1, 2), (56, 1)]
    ((given armed12 0 reference).Accepts .setTimebase (taken 0 reference 50040) ∧ (given armed12 0 reference).entries ≠ []) ∧
    ((given base 0 reference).Accepts .setTimebase (taken 0 reference) ∧ (given base 0 reference).entries = [] ∧
      base.table.reservation = 0) ∧
    ((given base 0 oscillator).Accepts .setTimebase (taken 0 oscillator) ∧ (given base 0 oscillator).entries = []) :=
  ⟨⟨accepts_of (by decide +kernel), by decide +kernel⟩, ⟨accepts_of (by decide +kernel), by decide +kernel⟩,
    ⟨accepts_of (by decide +kernel), by decide +kernel⟩⟩

/-! #### Domain commands -/

/-- The domain 64 and the quota 16,385; the domain 63 with the quota 16,384, FREE; and a domain that exists. -/
theorem witness_CreateDomainCreates :
    let r (domain quota : Nat) := record [(0, 0x20), (6, domain), (56, quota)]
    ((given base 0 (r 64 1)).Takes .createDomain (taken 0 (r 64 1)) ∧ 63 < recDomain (r 64 1)) ∧
    ((given base 0 (r 0 16385)).Takes .createDomain (taken 0 (r 0 16385)) ∧ 16384 < recLengthA (r 0 16385)) ∧
    ((given base 0 (r 0 0)).Takes .createDomain (taken 0 (r 0 0)) ∧ recLengthA (r 0 0) < 1) ∧
    ((given base 0 (r 63 16384)).Takes .createDomain (taken 0 (r 63 16384)) ∧ (63 : Fin 64).val = recDomain (r 63 16384) ∧
      1 ≤ recLengthA (r 63 16384) ∧ recLengthA (r 63 16384) ≤ 16384 ∧ (base.domain 63).state = .free) ∧
    ((given base 0 (r 3 1)).Takes .createDomain (taken 0 (r 3 1)) ∧ (3 : Fin 64).val = recDomain (r 3 1) ∧
      1 ≤ recLengthA (r 3 1) ∧ (base.domain 3).state ≠ .free) :=
  ⟨⟨takes_of (by decide +kernel), by decide +kernel⟩, ⟨takes_of (by decide +kernel), by decide +kernel⟩,
    ⟨takes_of (by decide +kernel), by decide +kernel⟩, ⟨takes_of (by decide +kernel), by decide +kernel⟩,
    ⟨takes_of (by decide +kernel), by decide +kernel⟩⟩

/-- A FREE domain, a busy one, one with entries, and the two forms that are carried out. -/
theorem witness_DestroyDomainDestroys :
    let r (domain : Nat) := record [(0, 0x21), (6, domain)]
    let force := record [(0, 0x21), (2, 4), (6, 3)]
    let empty := base.updateDomain 3 (fun _ => running 10 0)
    ((given base 0 (r 63)).Canonical ∧ (given base 0 (r 63)).Accepts .destroyDomain (taken 0 (r 63)) ∧ (base.domain 63).state = .free) ∧
    ((given (destroying12 0) 0 (r 12)).Canonical ∧ (given (destroying12 0) 0 (r 12)).Accepts .destroyDomain (taken 0 (r 12)) ∧
      ((destroying12 0).domain 12).state ≠ .free ∧ ((destroying12 0).domain 12).isBusy = true) ∧
    ((given base 0 (r 3)).Canonical ∧ (given base 0 (r 3)).Accepts .destroyDomain (taken 0 (r 3)) ∧ (base.domain 3).state ≠ .free ∧
      (base.domain 3).isBusy = false ∧ ¬ recForce (r 3) = true ∧ 0 < (base.domain 3).inUse) ∧
    ((given base 0 force).Canonical ∧ (given base 0 force).Accepts .destroyDomain (taken 0 force) ∧ recForce force = true ∧
      (base.domain 3).state ≠ .free ∧ (base.domain 3).isBusy = false) ∧
    ((given empty 0 (r 3)).Canonical ∧ (given empty 0 (r 3)).Accepts .destroyDomain (taken 0 (r 3)) ∧ (empty.domain 3).inUse = 0 ∧
      (empty.domain 3).state ≠ .free ∧ (empty.domain 3).isBusy = false) := by
  unfold State.Canonical
  exact ⟨⟨by decide +kernel, accepts_of (by decide +kernel), by decide +kernel⟩,
    ⟨by decide +kernel, accepts_of (by decide +kernel), by decide +kernel⟩, ⟨by decide +kernel, accepts_of (by decide +kernel), by decide +kernel⟩,
    ⟨by decide +kernel, accepts_of (by decide +kernel), by decide +kernel⟩,
    ⟨by decide +kernel, accepts_of (by decide +kernel), by decide +kernel⟩⟩

/-- No walk; a visit of an entry of the domain and of a FREE slot, the last one; and the end. -/
theorem witness_DestroyWalkVisitsAndEnds :
    ((base.domain 12).walk = none) ∧
    ((destroying12 5000).host.device = .ready ∧ (((destroying12 5000).domain 12).walk).map (fun w => w.position) = some 5000 ∧
      ((destroying12 5000).entryAt 5000).map (fun e => e.domain) = some 12) ∧
    ((destroying12 16383).host.device = .ready ∧ (((destroying12 16383).domain 12).walk).map (fun w => w.position) = some 16383 ∧
      (destroying12 16383).entryAt 16383 = none) ∧
    ((destroying12 16384).host.device = .ready ∧ (((destroying12 16384).domain 12).walk).map (fun w => w.position) = some 16384 ∧
      (destroying12 16384).Canonical) := by
  unfold State.Canonical
  decide +kernel

/-- The domain 64; a FREE one; one at depth 4; one at depth 3, and a RUNNING one. -/
theorem witness_PauseDomainPauses :
    let r (domain : Nat) := record [(0, 0x22), (6, domain)]
    let at4 := base.updateDomain 63 (fun _ => paused 4 1800 100 3)
    let at3 := base.updateDomain 63 (fun _ => paused 3 1800 100 3)
    ((given base 0 (r 64)).Takes .pauseDomain (taken 0 (r 64)) ∧ 63 < recDomain (r 64)) ∧
    ((given base 0 (r 63)).Takes .pauseDomain (taken 0 (r 63)) ∧ (63 : Fin 64).val = recDomain (r 63) ∧ (base.domain 63).state = .free) ∧
    ((given at4 0 (r 63)).Takes .pauseDomain (taken 0 (r 63)) ∧ (at4.domain 63).state ≠ .free ∧ (at4.domain 63).pauseDepth = 4) ∧
    ((given at3 0 (r 63)).Takes .pauseDomain (taken 0 (r 63)) ∧ (at3.domain 63).state ≠ .free ∧ (at3.domain 63).pauseDepth = 3) ∧
    ((given base 0 (r 3)).Takes .pauseDomain (taken 0 (r 3)) ∧ (base.domain 3).state = .running ∧ (base.domain 3).pauseDepth = 0) :=
  ⟨⟨takes_of (by decide +kernel), by decide +kernel⟩, ⟨takes_of (by decide +kernel), by decide +kernel⟩,
    ⟨takes_of (by decide +kernel), by decide +kernel⟩, ⟨takes_of (by decide +kernel), by decide +kernel⟩,
    ⟨takes_of (by decide +kernel), by decide +kernel⟩⟩

/-- The domain 64; a FREE one; a busy one; a RUNNING one; depth 2; and depth 1. -/
theorem witness_ResumeDomainResumes :
    let r (domain : Nat) := record [(0, 0x23), (6, domain)]
    let busy := base.updateDomain 9 (fun _ => { paused 1 1800 100 3 with busy := .importing })
    let at2 := held9.updateDomain 9 (fun d => { d with pauseDepth := 2 })
    ((given base 0 (r 64)).Takes .resumeDomain (taken 0 (r 64)) ∧ 63 < recDomain (r 64)) ∧
    ((given base 0 (r 9)).Takes .resumeDomain (taken 0 (r 9)) ∧ (9 : Fin 64).val = recDomain (r 9) ∧ (base.domain 9).state = .free) ∧
    ((given busy 0 (r 9)).Takes .resumeDomain (taken 0 (r 9)) ∧ (busy.domain 9).state ≠ .free ∧ (busy.domain 9).isBusy = true) ∧
    ((given base 0 (r 3)).Takes .resumeDomain (taken 0 (r 3)) ∧ (base.domain 3).state ≠ .free ∧ (base.domain 3).isBusy = false ∧
      (base.domain 3).pauseDepth = 0) ∧
    ((given at2 0 (r 9)).Takes .resumeDomain (taken 0 (r 9) 3320) ∧ (at2.domain 9).state ≠ .free ∧ (at2.domain 9).isBusy = false ∧
      (at2.domain 9).pauseDepth = 2) ∧
    ((given held9 0 (r 9)).Takes .resumeDomain (taken 0 (r 9) 3320) ∧ (held9.domain 9).state ≠ .free ∧ (held9.domain 9).isBusy = false ∧
      (held9.domain 9).pauseDepth = 1) :=
  ⟨⟨takes_of (by decide +kernel), by decide +kernel⟩, ⟨takes_of (by decide +kernel), by decide +kernel⟩,
    ⟨takes_of (by decide +kernel), by decide +kernel⟩, ⟨takes_of (by decide +kernel), by decide +kernel⟩,
    ⟨takes_of (by decide +kernel), by decide +kernel⟩, ⟨takes_of (by decide +kernel), by decide +kernel⟩⟩

/-! #### Transfer commands -/

/-- EXPORT with 135 and with 136 bytes; IMPORT on a STOPPED Timebase and on one that runs; and an EXPORT that was EXECUTING when the device FAILED. -/
theorem witness_TransfersStart :
    let e (bytes : Nat) := record [(0, 0x28), (6, 5), (40, 0x2000), (56, bytes)]
    let i := record [(0, 0x29), (6, 5), (40, 0x2000), (48, 0x3000), (56, 40)]
    let stopped : State := { exporting5 with timebase := Timebase.reset }
    ((given exporting5 0 (e 135)).Accepts .exportDomain (taken 0 (e 135) 40000) ∧
      firstFailure (exportChecks (e 135) (given exporting5 0 (e 135))) = some .bufferTooSmall) ∧
    ((given exporting5 0 (e 136)).Accepts .exportDomain (taken 0 (e 136) 40000) ∧
      firstFailure (exportChecks (e 136) (given exporting5 0 (e 136))) = none) ∧
    ((given stopped 0 i).Accepts .importDomain (taken 0 i 0) ∧ firstFailure (importChecks i (given stopped 0 i)) = some .timebaseStopped) ∧
    ((given exporting5 0 i).Accepts .importDomain (taken 0 i 40000) ∧ firstFailure (importChecks i (given exporting5 0 i)) = none) ∧
    ((executing exporting5 .failed 0 (e 136) 40000).Accepts .exportDomain (taken 0 (e 136) 40000) ∧
      firstFailure (exportChecks (e 136) (executing exporting5 .failed 0 (e 136) 40000)) = none) :=
  ⟨⟨accepts_of (by decide +kernel), by decide +kernel⟩, ⟨accepts_of (by decide +kernel), by decide +kernel⟩, ⟨accepts_of (by decide +kernel), by decide +kernel⟩,
    ⟨accepts_of (by decide +kernel), by decide +kernel⟩, ⟨accepts_of (by decide +kernel), by decide +kernel⟩⟩

/-- `withJob` in `stage`, with this transfer in flight. -/
def transferring (stage : JobStage) (q : DmaRequest) : State := (withJob (job stage) 13).pushDma q

/-- ABORT without a job, with one in each stage, and outside READY; a bus error with nothing in flight, outside READY, of an ended job's transfer without and with a job, and of the
job's own in each stage. -/
theorem witness_TransfersFail :
    let r := record [(0, 0x2A)]
    let read (live : Bool) : DmaRequest := .transferRead live .header 0x2000#64 32
    let write : DmaRequest := .transferWrite true .header 0x2000#64 32 0#256
    ((given base 0 r).Accepts .abortTransfer (taken 0 r) ∧ base.transfer.job = none) ∧
    (∀ stage, (given (withJob (job stage) 13) 0 r).Accepts .abortTransfer (taken 0 r 90000) ∧
      (withJob (job stage) 13).transfer.job = some (job stage)) ∧
    ((executing (withJob (job .writing) 13) .stopping 0 r).Accepts .abortTransfer (taken 0 r) ∧
      (executing (withJob (job .writing) 13) .stopping 0 r).host.device ≠ .ready) ∧
    (base.host.dma.find? DmaRequest.ofTransfer = none) ∧
    ((stopping.pushDma (read true)).host.device ≠ .ready ∧
      (stopping.pushDma (read true)).host.dma.find? DmaRequest.ofTransfer = some (read true)) ∧
    ((base.pushDma (read false)).host.dma.find? DmaRequest.ofTransfer = some (read false) ∧ base.host.device = .ready ∧
      base.transfer.job = none) ∧
    (∀ stage, (transferring stage (read false)).host.dma.find? DmaRequest.ofTransfer = some (read false) ∧ (read false).isLive = false ∧
      (transferring stage (read false)).transfer.job = some (job stage)) ∧
    (∀ stage, (transferring stage (read true)).host.dma.find? DmaRequest.ofTransfer = some (read true) ∧
      (transferring stage (read true)).host.device = .ready ∧ (transferring stage (read true)).transfer.job = some (job stage)) ∧
    ((transferring .writing write).host.dma.find? DmaRequest.ofTransfer = some write ∧ write.isLive = true) := by
  refine ⟨⟨accepts_of (by decide +kernel), by decide +kernel⟩, fun stage => ⟨accepts_of ?_, rfl⟩,
    ⟨accepts_of (by decide +kernel), by decide +kernel⟩, by decide +kernel, by decide +kernel, by decide +kernel, fun stage => ?_, fun stage => ?_, by decide +kernel⟩
  · cases stage <;> decide +kernel
  · cases stage <;> decide +kernel
  · cases stage <;> decide +kernel

/-- A whole table, whose entry in slot 0 carries the import mark of its domain's job. -/
theorem witness_JobsEndAndRollBack :
    let s := liveWith { oneshot 52500 with phase := .held, importMark := true }
    s.TableLegal ∧ (∃ e, s.entryAt 0 = some e ∧ e.importMark = true ∧ e.domain = 3) :=
  ⟨liveWith_table _, _, rfl, rfl, rfl⟩

/-! #### The register window and the device states -/

/-- A CLOSED ring; the last index; the size, of an I/O ring and of SR0. -/
theorem witness_TailWriteSetsTail :
    ((base.sr 5).state ≠ .active) ∧ (base.host.device = .ready ∧ (base.sr 2).state = .active ∧ (15#32).toNat < (base.sr 2).size) ∧
    ((base.sr 2).size ≤ (16#32).toNat ∧ (2 : Fin 8) ≠ 0) ∧ ((base.sr 0).state = .active ∧ (base.sr 0).size ≤ (16#32).toNat) := by decide +kernel

/-- A CLOSED ring; the most that may be released, 15 of 15; the size as a head; 14 released of 13; in ERROR, ACTIVE, and CR0. -/
theorem witness_HeadWriteReleases :
    let s := base.updateCr 5 (fun _ => wrapRing)
    let short := base.updateCr 5 (fun _ => { wrapRing with unconsumed := 13 })
    let failed := base.updateCr 5 (fun _ => { wrapRing with state := .error, unconsumed := 13 })
    ((base.cr 7).state = .closed) ∧
    (s.host.device = .ready ∧ (s.cr 5).state ≠ .closed ∧ (s.cr 5).head < (s.cr 5).size ∧ ((s.cr 5).head + 15) % (s.cr 5).size = (9#32).toNat ∧
      15 ≤ (s.cr 5).unconsumed) ∧
    ((short.cr 5).state = .active ∧ (short.cr 5).size ≤ (16#32).toNat) ∧
    ((short.cr 5).state = .active ∧ (5 : Fin 8) ≠ 0 ∧ ((short.cr 5).head + 14) % (short.cr 5).size = (8#32).toNat ∧
      (short.cr 5).unconsumed < 14) ∧
    ((failed.cr 5).state = .error ∧ (failed.cr 5).head < (failed.cr 5).size ∧ (failed.cr 5).unconsumed < 14) ∧
    ((base.cr 0).state = .active ∧ (base.cr 0).head < (base.cr 0).size ∧ (base.cr 0).size ≤ (16#32).toNat) := by decide +kernel

/-- ENABLE 1 and 0; DISABLED with a valid and with an invalid configuration; READY and not; the drain not complete, for a write, an EXECUTING
command and a waiting ARM that may be allocated; an ABORT that ends no job; and complete with ENABLE 0, with
ENABLE 1 and a valid configuration, and with an invalid one. -/
theorem witness_DeviceStatesChange :
    let drained (enable : Bool) (a : AdminRegisters) : State :=
      { base with host := { base.host with device := .stopping, enable := enable, dma := [], admin := a } }
    (base.host.enable = true ∧ base.host.device = .ready) ∧ (stopping.host.enable = false ∧ stopping.host.device ≠ .disabled) ∧
    (configured.host.enable = false ∧ configured.host.device = .disabled ∧ configured.host.admin.valid = true) ∧
    (State.reset.host.enable = false ∧ State.reset.host.device = .disabled ∧ State.reset.host.admin.valid = false) ∧
    (stopping.host.dma ≠ []) ∧
    ((executing (drained false .reset) .stopping 2 armRecord).executor.state = .executing (taken 2 armRecord) ∧
      kindOf armRecord ≠ some .abortTransfer) ∧
    (waitingArm.headMarked = false ∧ waitingArm.table.waiting.head? = some .arm) ∧
    (kindOf (record [(0, 0x2A)]) = some .abortTransfer ∧ (taken 0 (record [(0, 0x2A)])).ticket.source = 0 ∧
      (executing (withJob (job .writing) 3) .stopping 0 (record [(0, 0x2A)])).transfer.job ≠ none) ∧
    ((drained false .reset).executor.state = .idle) ∧
    ((drained false .reset).host.device = .stopping ∧ (drained false .reset).host.dma = [] ∧ (drained false .reset).wheel.step = none ∧
      (drained false .reset).host.enable = false) ∧
    ((drained true configured.host.admin).host.admin.valid = true ∧ (drained true configured.host.admin).host.enable = true) ∧
    ((drained true .reset).host.admin.valid = false ∧ (drained true .reset).host.enable = true) := by decide +kernel

/-- The largest N; the double access's first word; a device not READY; an offset that names no register, just past the last head register, and an
admin register in READY. -/
theorem witness_WindowReadsAndWrites :
    ((at_ base (2 ^ 64 - 1) 0).timebase.time ≤ 2 ^ 64 - 1) ∧ (∃ u, exec (.registerWrite 0x010 (.words 1) [0#32]) State.reset = .next u) ∧ ((16 : Nat) ≤ 16) ∧
    (State.reset.host.device ≠ .ready) ∧
    ((0x160 : Nat) ≠ 0x004 ∧ (∀ i : Fin 8, (0x160 : Nat) ≠ 0x100 + 4 * i.val ∧ (0x160 : Nat) ≠ 0x140 + 4 * i.val) ∧
      (0x160 : Nat) ∉ [0x010, 0x014, 0x018, 0x020, 0x024, 0x028, 0x030, 0x034, 0x038]) ∧
    ((0x038 : Nat) ≠ 0x004 ∧ (∀ i : Fin 8, (0x038 : Nat) ≠ 0x100 + 4 * i.val ∧ (0x038 : Nat) ≠ 0x140 + 4 * i.val) ∧
      base.host.device = .ready) :=
  ⟨by decide +kernel, ⟨_, rfl⟩, by decide +kernel, by decide, by decide +kernel⟩

/-! #### Fetching -/

/-- Section 7.4's example once SR0 is empty, with this used count. -/
def ioOnly (used : Nat) : State :=
  let s := weighted.updateSr 0 (fun r => { r with tail := 0 })
  { s with fetcher := { s.fetcher with used := used } }

/-- A record to take; a KICK's, a READ STATUS's, a PAUSE's and a RESUME's; none; a path that is not IDLE; SR0 eligible, with one free slot in CR0; SR3, which holds the grant, eligible with one fetch of its weight left; and its
weight used up, so that SR1 is next. -/
theorem witness_ArbitrationServes :
    let last := weighted.updateCr 0 (fun c => { c with unconsumed := 14 })
    let kick := record [(0, 0x04), (12, 0x2004D)]
    let status := record [(0, 0x06)]
    let pause := record [(0, 0x22), (6, 9)]
    let resume := record [(0, 0x23), (6, 9)]
    ((given weighted 0 armRecord).takeable = some { record := armRecord, source := 0, ring := 0 } ∧ kindOf armRecord = some .arm ∧
      (given weighted 0 kick).takeable = some { record := kick, source := 0, ring := 0 } ∧ kindOf kick = some .kick ∧
      (given weighted 0 status).takeable = some { record := status, source := 0, ring := 0 } ∧ kindOf status = some .readStatus ∧
      (given weighted 0 pause).takeable = some { record := pause, source := 0, ring := 0 } ∧ kindOf pause = some .pauseDomain ∧
      (given weighted 0 resume).takeable = some { record := resume, source := 0, ring := 0 } ∧ kindOf resume = some .resumeDomain ∧
      weighted.takeable = none) ∧
    (fetching3.fetcher.path ≠ .idle) ∧
    (last.host.device = .ready ∧ last.fetcher.path = .idle ∧ (last.sr 0).state = .active ∧ (last.sr 0).tail ≠ (last.sr 0).head ∧
      (last.cr 0).state = .active ∧ (last.cr 0).freeSpace = 1) ∧
    ((ioOnly 2).host.device = .ready ∧ (ioOnly 2).fetcher.path = .idle ∧ ((ioOnly 2).sr 0).tail = ((ioOnly 2).sr 0).head ∧
      (ioOnly 2).fetcher.grant = some 3 ∧ ((ioOnly 2).sr 3).tail ≠ ((ioOnly 2).sr 3).head ∧
      (ioOnly 2).fetcher.used + 1 = (ioOnly 2).fetcher.grantWeight) ∧
    ((ioOnly 3).fetcher.grant = some 3 ∧ (ioOnly 3).fetcher.used = (ioOnly 3).fetcher.grantWeight ∧
      ((ioOnly 3).sr 1).tail ≠ ((ioOnly 3).sr 1).head ∧ ((ioOnly 3).sr 1).state = .active ∧ ((ioOnly 3).sr 1).paired = 2 ∧
      ((ioOnly 3).cr 2).state = .active ∧ 1 ≤ ((ioOnly 3).cr 2).freeSpace ∧ ∀ i : Fin 8, 3 < i → ((ioOnly 3).sr i).state ≠ .active) := by
  decide +kernel

/-- No read in flight; one outside READY; SR0's; an ACTIVE ring's; a CLOSING ring's without and with a completion held for it. -/
theorem witness_FetchReadEnds :
    let f : Fetch := { source := 3, headSlot := 5, ring := 2 }
    let sr0 : State := { base with fetcher := { base.fetcher with path := .reading { source := 0, headSlot := 0, ring := 0 } } }
    let closing := fetching3.updateSr 3 (fun r => { r with state := .closing })
    let held : State := { closing with executor := { closing.executor with
      held := some { closing := 3, ring := 0, completion := ({ status := .success } : Reply).completion { source := 0, ring := 0, tag := 0#16 } } } }
    (∀ g, base.fetcher.path ≠ .reading g) ∧
    (({ fetching3 with host := { fetching3.host with device := .stopping } } : State).fetcher.path = .reading f) ∧
    (sr0.host.device = .ready ∧ sr0.fetcher.path = .reading { source := 0, headSlot := 0, ring := 0 }) ∧
    (fetching3.host.device = .ready ∧ fetching3.fetcher.path = .reading f ∧ f.source ≠ 0 ∧ (fetching3.sr 3).state ≠ .closing) ∧
    (closing.fetcher.path = .reading f ∧ (closing.sr 3).state = .closing ∧ closing.executor.held = none) ∧
    (held.fetcher.path = .reading f ∧ (held.sr 3).state = .closing ∧ held.executor.held.isSome = true) := by
  refine ⟨fun g h => ?_, by decide +kernel⟩
  cases h

/-! #### Time -/

/-- A STOPPED Timebase; one that ticks, at the largest N and at a lag of 4,096 exactly, with a delay that ends. -/
theorem witness_TickAdvancesTime :
    let s := (at_ base 4096 0).updateCr 2 (fun c => { c with
      interrupts := true, moderationCount := 255, moderationDelay := 1023, unnotified := 1, delayCount := some 1022 })
    (State.reset.host.device ≠ .ready) ∧ ((reference .locked 0 0).state ≠ .freeRunning) ∧
    (s.host.device = .ready ∧ s.timebase.state = .freeRunning ∧ 4096 < min (2 ^ 64 - 1) (s.timebase.time + 1)) ∧
    ((s.cr 2).interrupts = true ∧ 0 < (s.cr 2).moderationDelay ∧ (s.cr 2).delayCount.map (· + 1) = some (s.cr 2).moderationDelay) ∧
    ((at_ base (2 ^ 64 - 1) 0).host.device = .ready ∧ (at_ base (2 ^ 64 - 1) 0).timebase.state = .freeRunning) := by decide +kernel

/-- A device that is FREE_RUNNING; an edge at 350 and at 450 units, both ends of the tolerance, that does not complete a run, in ACQUIRING and in
LOCKED, with the divisor one edge away and further; and one that completes it, in each state. -/
theorem witness_EdgesAreJudgedAndCounted :
    let good (state : TimebaseState) : Timebase := { reference state 0 998 with goodRunCount := 1023 }
    (base.timebase.state ≠ .acquiring ∧ base.timebase.state ≠ .locked ∧ base.timebase.state ≠ .holdover) ∧
    (base.host.device = .ready ∧ (reference .acquiring 0 0).state = .acquiring ∧ (reference .acquiring 0 0).lastEdge = some 0 ∧
      7 * (reference .acquiring 0 0).nominal.getD 0 ≤ 8 * 350 ∧ 8 * 450 ≤ 9 * (reference .acquiring 0 0).nominal.getD 0 ∧
      ¬ 1024 ≤ (reference .acquiring 0 0).goodRunCount + 1) ∧
    ((reference .locked 0 998).edgeCounter + 1 < (reference .locked 0 998).divisor.getD 0) ∧
    ((reference .locked 0 999).divisor.getD 0 ≤ (reference .locked 0 999).edgeCounter + 1) ∧
    (∀ state, state ∈ [TimebaseState.acquiring, .locked, .holdover] → (good state).state = state ∧ (good state).lastEdge = some 0 ∧
      1024 ≤ (good state).goodRunCount + 1 ∧ (good state).lossWindowStart + 350 = 350) := by decide +kernel

/-- Each state of the Timebase, legal; and the divisor reached and not, by the edges that the loss counts and by one edge equivalent. -/
theorem witness_LossBeginsHoldover :
    let s (b : Timebase) : State := { base with timebase := b }
    (base.host.device = .ready) ∧ (stopping.host.device ≠ .ready) ∧ (base.timebase.state = .freeRunning) ∧
    (∀ state, state ∈ [TimebaseState.stopped, .acquiring, .locked, .holdover] → (s (reference state 5000 600)).timebase.state = state) ∧
    (∀ state, state ∈ [TimebaseState.acquiring, .locked, .holdover] → (s (reference state 5000 600)).TimebaseLegal) ∧
    (s Timebase.reset).TimebaseLegal ∧ base.TimebaseLegal ∧ (s (reference .locked 5000 996)).TimebaseLegal ∧
    (s (reference .locked 5000 997)).TimebaseLegal ∧ (s { reference .holdover 5000 999 with equivalentStart := some 1228830 }).TimebaseLegal ∧
    (reference .holdover 5000 999).divisor.getD 1 ≤ (reference .holdover 5000 999).edgeCounter + 1 ∧
    (reference .holdover 5000 998).edgeCounter + 1 < (reference .holdover 5000 998).divisor.getD 1 := by
  unfold State.TimebaseLegal
  decide +kernel

/-! #### The Timing Wheel -/

/-- W = N, so that no step begins; N one ahead of W; no step to end; one with its sweep still to do, one with an entry still in L0; one that ends, with
an overrun caught up and without. -/
theorem witness_WheelStepBeginsAndEnds :
    let ending (n : Nat) (overrun : Bool) : State :=
      { at_ base n 19001 with wheel := { (at_ base n 19001).wheel with overrun := overrun, step := some { sweepLeft := 0 } } }
    (base.timebase.time ≤ base.wheel.time ∧ base.wheel.step = none) ∧
    ((at_ base 101 100).host.device = .ready ∧ (at_ base 101 100).wheel.time < (at_ base 101 100).timebase.time ∧
      (at_ base 101 100).wheel.step = none) ∧
    ((stepping 16777216 (some { sweepLeft := 1 }) 16777221 .overflow).wheel.step = some { sweepLeft := 1 }) ∧
    ((stepping 120 (some { sweepLeft := 0 }) 120 (.slot 0 56)).wheelSlot 0 (Fin.ofNat 64 120) ≠ []) ∧
    ((ending 19001 true).host.device = .ready ∧ (ending 19001 true).wheel.overrun = true ∧
      (ending 19001 true).wheel.time = (ending 19001 true).timebase.time ∧ (ending 19001 true).wheelSlot 0 (Fin.ofNat 64 19001) = []) ∧
    ((ending 19002 true).wheel.time ≠ (ending 19002 true).timebase.time) ∧ ((ending 19001 false).wheel.overrun = false) ∧
    (∀ device ∈ [DeviceState.stopping, .failed], { ending 19001 true with host := { base.host with device := device } }.host.device = device) := by
  decide +kernel

/-- No step; the sweep, with one entry left; the cascade of level 1 at 128; nothing to cascade, and an empty and a filled L0 slot. -/
theorem witness_WheelStepMovesEntries :
    let sweep := stepping 16777216 (some { sweepLeft := 1 }) 16777221 .overflow
    let cascade := stepping 128 (some { sweepLeft := 0 }) 130 (.slot 1 2)
    let empty := stepping 120 (some { sweepLeft := 0 }) 120 (.slot 0 56)
    (base.wheel.step = none) ∧ (sweep.wheel.step = some { sweepLeft := 1 } ∧ sweep.wheel.overflow = [1] ∧
      (sweep.entryAt 1).map (fun e => (e.phase, e.location)) = some (.armed, some .overflow)) ∧
    (cascade.wheel.step = some { sweepLeft := 0 } ∧ cascade.wheel.time % 64 ^ 1 = 0 ∧ cascade.wheelSlot 1 (Fin.ofNat 64 (128 / 64 ^ 1)) = [1] ∧
      cascade.wheelSlot 2 (Fin.ofNat 64 (128 / 64 ^ 2)) = [] ∧ cascade.wheelSlot 3 (Fin.ofNat 64 (128 / 64 ^ 3)) = [] ∧
      (cascade.entryAt 1).map (fun e => (e.phase, e.location)) = some (.armed, some (.slot 1 2))) ∧
    ((stepping 120 (some { sweepLeft := 0 }) 130 (.slot 1 2)).wheelSlot 0 (Fin.ofNat 64 120) = []) ∧
    (empty.wheel.step = some { sweepLeft := 0 } ∧ empty.wheel.time % 64 ^ 1 ≠ 0 ∧ empty.wheel.time % 64 ^ 2 ≠ 0 ∧ empty.wheel.time % 64 ^ 3 ≠ 0 ∧
      empty.wheelSlot 0 (Fin.ofNat 64 120) = [1] ∧
      (empty.entryAt 1).map (fun e => (e.phase, e.location)) = some (.armed, some (.slot 0 56))) := by decide +kernel

/-! #### Expiry -/

/-- An empty due queue; a DESTROYING domain; a domain at depth 1. -/
theorem witness_TakeDiscardsOrHolds :
    let s := due 500 (oneshot 500)
    let destroying := s.updateDomain 3 (fun _ => { running 10 1 with
      state := .destroying, walk := some { position := 0, walkCount := 0, discardCount := 0, ticket := { source := 0, ring := 0, tag := 0#16 } } })
    let held := s.updateDomain 3 (fun _ => paused 1 400 10 1)
    (base.wheel.dueQueue = []) ∧
    (destroying.host.device = .ready ∧ destroying.wheel.dueQueue = [12] ∧
      (destroying.entryAt 12).map (fun e => (e.phase, e.location, e.domain)) = some (.due, some .dueQueue, 3) ∧
      (destroying.domain 3).state = .destroying) ∧
    (held.host.device = .ready ∧ held.wheel.dueQueue = [12] ∧
      (held.entryAt 12).map (fun e => (e.phase, e.location, e.domain)) = some (.due, some .dueQueue, 3) ∧
      (held.domain 3).state ≠ .destroying ∧ 1 ≤ (held.domain 3).pauseDepth) := by decide +kernel

/-- A one-shot; a periodic entry at the end of its fire limit, at the end of device time, and before both; a guard. -/
theorem witness_TakeFires :
    let s (e : Entry) := due (2 ^ 64 - 1) e
    let fires (e : Entry) : Prop := (s e).host.device = .ready ∧ (s e).wheel.dueQueue = [12] ∧
      (s e).entryAt 12 = some { e with phase := .due, location := some .dueQueue } ∧ ((s e).domain e.domain).state ≠ .destroying ∧
      ((s e).domain e.domain).pauseDepth = 0
    fires (oneshot 500) ∧ fires { periodic 500 100 with fireLimit := some 1 } ∧
    (fires (periodic (2 ^ 64 - 1) 1) ∧ 2 ^ 64 - 1 < (2 ^ 64 - 1) + (0 + 1) * 1) ∧
    (fires { periodic (2 ^ 64 - 2) 2 with fireLimit := some 2 }) ∧ fires (guardEntry 500 100) := by decide +kernel

/-! #### Notification -/

/-- One free slot and an empty deferred list; a deferred list that is not empty; a device outside READY; a drain without, and with, space; an entry that stays and a FIRED
one. -/
theorem witness_ExpiriesTakenForWriting :
    let last := base.updateCr 2 (fun c => { c with unconsumed := 14 })
    let fired := withEntries base [(12, 4, { oneshot 500 with phase := .fired, pendingExpiry := some (waitingFire 500) })]
    (last.host.device = .ready ∧ (last.cr 2).state = .active ∧ (last.cr 2).freeSpace = 1 ∧ (last.cr 2).deferred = []) ∧
    (deferred40.host.device = .ready ∧ (deferred40.cr 2).deferred ≠ []) ∧ (stopping.host.device ≠ .ready) ∧
    ((base.cr 2).deferred = []) ∧
    ((deferred40.cr 2).state = .active ∧ (deferred40.cr 2).freeSpace = 1 ∧ (deferred40.cr 2).deferred = [40, 41]) ∧
    ((deferred40.entryAt 40).map (fun e => (e.phase, e.pendingExpiry.isSome)) = some (.armed, true)) ∧
    ((fired.entryAt 12).map (fun e => (e.phase, e.pendingExpiry.isSome)) = some (.fired, true)) := by decide +kernel

/-- An empty event set; an event, with one free slot; and each trigger due and one short of it. -/
theorem witness_EventsAndMessagesGoOut :
    let s := (base.raise .wheelOverrun .timingWheel .none).updateCr 0 (fun c => { c with unconsumed := 14 })
    let m (unnotified delay : Nat) := base.updateCr 2 (fun c => { c with
      interrupts := true, moderationCount := 255, moderationDelay := 1023, unnotified := unnotified, delayCount := some delay })
    (base.poster.events = []) ∧ (s.host.device = .ready ∧ (s.cr 0).state = .active ∧ (s.cr 0).freeSpace = 1 ∧ s.poster.events.length = 1) ∧
    ((m 255 0).host.device = .ready ∧ ((m 255 0).cr 2).moderationCount ≤ ((m 255 0).cr 2).unnotified) ∧
    (¬ ((m 254 0).cr 2).moderationCount ≤ ((m 254 0).cr 2).unnotified) ∧
    (((m 1 1023).cr 2).delayCount = some 1023 ∧ ((m 1 1022).cr 2).delayCount = some 1022) := by decide +kernel

/-- No write in flight; one outside READY; the end of a write that its mark belongs to, and of one to the same slot that it does not; a failed write
to CR0, and a failed message write to an I/O ring. -/
theorem witness_WritesEnd :
    let q : DmaRequest := .recordWrite 2 8 0 0x900#64 0#256 (.expiry 70 1 (waitingFire 500))
    let other := writing70.setRow 70 { writing70.rowAt 70 with mark := (writing70.markAt 70).map (fun m => { m with write := 1 }) }
    let cr0 := base.pushDma (.recordWrite 0 3 0 0x900#64 0#256 .completion)
    let message := base.pushDma (.messageWrite 7 0x900#64 0#32)
    (base.host.dma.find? DmaRequest.ofPoster = none) ∧
    (stopping.host.dma.find? DmaRequest.ofPoster = some (.messageWrite 2 0x900#64 0#32) ∧ stopping.host.device ≠ .ready) ∧
    (writing70.host.device = .ready ∧ writing70.host.dma.find? DmaRequest.ofPoster = some q ∧
      (writing70.markAt 70).map (fun m => (m.ring, m.ringSlot, m.write)) = some (2, 8, 0)) ∧
    (other.host.dma.find? DmaRequest.ofPoster = some q ∧ (other.markAt 70).map (fun m => (m.ring, m.ringSlot, m.write)) = some (2, 8, 1)) ∧
    (cr0.host.dma.find? DmaRequest.ofPoster = some (.recordWrite 0 3 0 0x900#64 0#256 .completion) ∧
      (DmaRequest.recordWrite 0 3 0 0x900#64 0#256 .completion).toRing 0 = true) ∧
    (message.host.dma.find? DmaRequest.ofPoster = some (.messageWrite 7 0x900#64 0#32) ∧
      (DmaRequest.messageWrite 7 0x900#64 0#32).toRing 7 = true) := by decide +kernel

/-- The mark in a DESTROYING domain; a FIRED entry to restore; an entry in use under the generation, of the record's ring and of another; a slot that was freed and
marked since. -/
theorem witness_FailedFiresRestored :
    let q : DmaRequest := .recordWrite 2 8 0 0x900#64 0#256 (.expiry 70 1 (waitingFire 500))
    let destroying := writing70.updateDomain 3 (fun d => { d with
      state := .destroying, walk := some { position := 0, walkCount := 0, discardCount := 0, ticket := { source := 0, ring := 0, tag := 0#16 } } })
    let inUse (ring : Fin 8) := withEntries writing70 [(70, 1, { periodic 600 100 with ring := ring })]
    let gone := withEntries writing70 []
    (destroying.host.device = .ready ∧ destroying.host.dma.find? DmaRequest.ofPoster = some q ∧ (destroying.domain 3).state = .destroying ∧
      (destroying.markAt 70).map (fun m => (m.generation, m.entry.domain)) = some (1, 3)) ∧
    (writing70.host.device = .ready ∧ writing70.host.dma.find? DmaRequest.ofPoster = some q ∧ (writing70.domain 3).state ≠ .destroying ∧
      (writing70.markAt 70).map (fun m => (m.generation, m.entry.domain, m.entry.ring)) = some (1, 3, 2)) ∧
    (∀ ring, (inUse ring).host.dma.find? DmaRequest.ofPoster = some q ∧ (inUse ring).markAt 70 = none ∧
      ((inUse ring).entryAt 70).map (fun e => e.ring) = some ring ∧ (inUse ring).generationAt 70 = 1) ∧
    (gone.host.dma.find? DmaRequest.ofPoster = some q ∧ gone.markAt 70 = none ∧ gone.entryAt 70 = none) := by decide +kernel

/-! #### Export and import -/

/-- An offset at its least, −2^63, and beyond, and at its largest, 2^63 − 1, and beyond; and a record that is well formed and one that is not. -/
theorem witness_ImageKeepsTimers :
    let e (deadline : Nat) : Entry := { guardEntry deadline (2 ^ 32 - 1) with phase := .tripped }
    (∀ deadline ∈ [0, 2 ^ 63 - 1, 2 ^ 64 - 1], (e deadline).legal = true ∧ (e deadline).phase ≠ .fired) ∧
    wellFormedRecord (image [(0, 2), (1, 5), (2, 1), (3, 7), (16, 1)]) = true ∧ wellFormedRecord (image [(0, 2), (1, 5), (2, 2), (3, 7), (16, 1)]) = false := by
  decide +kernel

/-- R178's bounds: the offset of an ABSOLUTE deadline 2^64 − 1 exported at N = 0 is written as 2^63 − 1, and that of deadline 0 at N = 2^64 − 1 as −2^63. -/
theorem test_exportVisit_bounds :
    (imageField (encodeEntry (oneshot (2 ^ 64 - 1)) 0) 8 8).toInt = 2 ^ 63 - 1 ∧
    (imageField (encodeEntry (oneshot 0) (2 ^ 64 - 1)) 8 8).toInt = -(2 ^ 63) := by decide +kernel

/-- Outside READY; with no job, with one in another stage, with every slot visited, and with no write in flight; a visit of the last slot, with an entry of the exported set and without; and of another slot; the end of each write; a release. -/
theorem witness_ExportWritesAndReleases :
    let at16383 := withJob { job .writing with position := 16383 } 3
    let entry := withEntries at16383 [(16383, 1, { oneshot 95000 with domain := 8, phase := .held })]
    let write (live : Bool) (item : TransferItem) : DmaRequest := .transferWrite live item 0x2000#64 32 0#256
    let released := liveWith { oneshot 52500 with phase := .held }
    let releasing : State := { released with transfer := { job := some { job .releasing with domain := 3 } } }
    (stopping.host.device ≠ .ready) ∧
    (base.transfer.job = none ∧ base.host.dma.find? DmaRequest.isTransferWrite = none ∧ (job .releasing).stage ≠ .writing ∧
      16384 ≤ { job .writing with position := 16384 }.position) ∧
    (at16383.host.device = .ready ∧ at16383.transfer.job = some { job .writing with position := 16383 } ∧ at16383.transferring = false ∧
      at16383.entryAt 16383 = none) ∧
    (entry.transferring = false ∧ (entry.entryAt 16383).map (fun e => (e.domain, e.phase)) = some (8, .held)) ∧
    ((withJob (job .writing) 3).entryAt 0 = none ∧ (withJob (job .writing) 3).transferring = false) ∧
    (∀ live item, item ∈ [TransferItem.header, .entryRecord, .trailer, .handle] →
      (transferring .writing (write live item)).host.dma.find? DmaRequest.isTransferWrite = some (write live item)) ∧
    ((base.pushDma (write false .header)).host.dma.find? DmaRequest.isTransferWrite = some (write false .header) ∧ base.transfer.job = none) ∧
    (releasing.TableLegal ∧ releasing.host.device = .ready ∧ releasing.transfer.job = some { job .releasing with domain := 3 } ∧
      (releasing.entryAt 0).map (fun e => (e.domain, e.phase)) = some (3, .held)) := by
  refine ⟨by decide +kernel, by decide +kernel, by decide +kernel, by decide +kernel, by decide +kernel, by decide +kernel, by decide +kernel, ?_,
    by decide +kernel⟩
  exact liveWith_table { oneshot 52500 with phase := .held }

/-- Outside READY; no read in flight; a live read of a job that has none; an ended job's read; in pass 1 a good and a bad header, a well-formed record and one that is not, and a trailer that fails and one
that passes; in pass 2 each read, with a creation that may be taken and one that must wait. -/
theorem witness_ImportReadsImage :
    let read (live : Bool) (item : TransferItem) : DmaRequest := .transferRead live item 0x2000#64 32
    let header (n : Nat) := image [(0, 0x7E1640A5), (4, 1), (7, 2), (8, n), (12, 25000)]
    let passing := (withJob { job .verifying with runningSum := 0xABCD#32, imageDivisor := 25000#32, recordCount := 3 } 10).pushDma
      (read true .trailer)
    let waiting := (withEntries (transferring .creating (read true .entryRecord)) []).updateCr 2 id
    (stopping.host.device ≠ .ready ∧ base.host.dma.find? DmaRequest.isTransferRead = none) ∧
    ((transferring .writing (read true .header)).host.dma.find? DmaRequest.isTransferRead = some (read true .header) ∧
      (transferring .writing (read true .header)).transfer.job = some (job .writing)) ∧
    (∀ live item, (item = .header ∨ item = .entryRecord ∨ item = .trailer) → ∀ stage, stage ∈ [JobStage.verifying, .creating] →
      (transferring stage (read live item)).host.dma.find? DmaRequest.isTransferRead = some (read live item) ∧
      (transferring stage (read live item)).transfer.job = some (job stage) ∧ (transferring stage (read live item)).host.device = .ready) ∧
    ((base.pushDma (read false .header)).host.dma.find? DmaRequest.isTransferRead = some (read false .header) ∧ base.transfer.job = none) ∧
    (headerGood (header 3) 136 = true ∧ headerGood (header 4) 136 = false) ∧
    (wellFormedRecord (image [(1, 1), (3, 7), (8, 500)]) = true ∧ wellFormedRecord (image [(1, 1), (3, 8), (8, 500)]) = false) ∧
    (passing.table.freeList.length = 3 ∧ firstFailure (pass1Checks passing
      { job .verifying with runningSum := 0xABCD#32, imageDivisor := 25000#32, recordCount := 3 } (image [(0, 0xABCD), (4, 3)])) = none ∧
      firstFailure (pass1Checks passing
        { job .verifying with runningSum := 0xABCD#32, imageDivisor := 25000#32, recordCount := 3 } (image [(0, 0xABCC), (4, 3)])) =
          some .imageChecksum) ∧
    (waiting.creationWaits = false ∧ markedHead.creationWaits = true ∧ markedHead.table.waiting = []) ∧
    ((job .creating).runningSum = (job .creating).pass1Sum ∧ { job .creating with runningSum := 1#32 }.runningSum ≠ (job .creating).pass1Sum) ∧
    waiting.Canonical := by
  unfold State.Canonical
  refine ⟨by decide +kernel, by decide +kernel, fun live item hi stage hs => ?_, by decide +kernel⟩
  rcases hi with rfl | rfl | rfl <;> revert stage live <;> decide +kernel

/-- Outside READY; no job, and a job with no claim under way; a claim that has to wait, waiting already and not, and one with the free list empty; and one that is taken, for each place of the entry. -/
theorem witness_CreationClaimsCreate :
    let r (phase : Nat) (offset : Nat) := image [(0, 2), (1, phase), (2, 1), (3, 3), (8, offset), (16, 400)]
    let marked (waiting : List Waiter) : State := { markedHead with
      transfer := { job := some { job .creating with creation := some (r 1 500) } }, table := { markedHead.table with waiting := waiting } }
    (stopping.host.device ≠ .ready ∧ base.transfer.job = none ∧ (job .creating).creation = none) ∧
    ({ creating (r 1 500) with table := { base.table with freeList := [] } }.table.freeList = []) ∧
    ((marked []).host.device = .ready ∧ (marked []).headMarked = true ∧ .creation ∉ (marked []).table.waiting) ∧
    ((marked [.creation]).headMarked = true ∧ .creation ∈ (marked [.creation]).table.waiting) ∧
    (∀ p ∈ [(1, 500), (1, 0), (3, 0), (5, 2 ^ 64 - 1800)], (creating (r p.1 p.2)).host.device = .ready ∧
      (creating (r p.1 p.2)).table.freeList = [300, 301, 302] ∧ (creating (r p.1 p.2)).headMarked = false ∧
      (creating (r p.1 p.2)).table.waiting.head? ≠ some .arm) := by decide +kernel

end Sys2Proof.Tests
end

section
/-! The rows of the Timer Table under a change, and the elementary changes that every command is made of. -/

namespace Sys2Proof.Machine

/-! ### Rows that a table lists -/

/-- A row listed after a store is the stored one, which then is not fresh, or an old one of another slot. -/
theorem mem_storeRow {rows : List (Nat × TableRow)} {k : Nat} {r : TableRow} {p : Nat × TableRow} (h : p ∈ storeRow rows k r) :
    p = (k, r) ∧ r ≠ TableRow.fresh ∨ p ∈ rows := by
  unfold storeRow at h
  split at h
  · exact .inr (List.mem_of_mem_filter h)
  · rename_i hr
    rcases mem_insertRow.1 h with h | h
    · exact .inl ⟨h, hr⟩
    · exact .inr (List.mem_of_mem_filter h)

/-- Storing a row twice is storing it once. -/
theorem storeRow_storeRow (rows : List (Nat × TableRow)) (k : Nat) (r r' : TableRow) :
    storeRow (storeRow rows k r) k r' = storeRow rows k r' := by
  have insert : ∀ l : List (Nat × TableRow), (∀ p ∈ l, p.1 ≠ k) → (insertRow l k r).filter (fun p => p.1 != k) = l := by
    intro l
    induction l with
    | nil => simp [insertRow]
    | cons p rest ih =>
      intro hl
      have hrest : rest.filter (fun p => p.1 != k) = rest := List.filter_eq_self.2 fun p hp => by simpa using hl p (by simp [hp])
      have hp : p.1 ≠ k := hl p (by simp)
      unfold insertRow
      split
      · simp [hp, hrest]
      · simp [hp, ih fun p hp => hl p (by simp [hp])]
  have hfilter : (storeRow rows k r).filter (fun p => p.1 != k) = rows.filter (fun p => p.1 != k) := by
    conv_lhs => unfold storeRow
    split
    · simp
    · exact insert _ (by simp)
  conv_lhs => rw [storeRow, hfilter]
  rfl

/-- What a slot reads as is fresh, or a listed row. -/
theorem lookupRow_ind {Q : TableRow → Prop} {rows : List (Nat × TableRow)} (hfresh : Q TableRow.fresh) (h : ∀ p ∈ rows, Q p.2) (k : Nat) :
    Q (lookupRow rows k) := by
  by_cases hk : lookupRow rows k = TableRow.fresh
  · rwa [hk]
  · exact h _ (mem_of_lookupRow hk)

/-! ### Legal entries and rows -/

theorem Entry.legal_iff {e : Entry} : e.legal = true ↔ e.ranged = true ∧ e.fits = true ∧ e.placed = true := by
  simp [Entry.legal, and_assoc]

theorem Entry.legal_of {e : Entry} (hr : e.ranged = true) (hf : e.fits = true) (hp : e.placed = true) : e.legal = true :=
  Entry.legal_iff.2 ⟨hr, hf, hp⟩

theorem TableRow.legal_iff {r : TableRow} : r.legal = true ↔ legalGeneration r.generation = true ∧ (∀ e, r.entry = some e → e.legal = true) ∧
    ∀ m, r.mark = some m → r.entry = none ∧ legalGeneration m.generation = true ∧ m.entry.phase = .fired ∧ m.entry.legal = true := by
  obtain ⟨g, e, m⟩ := r
  cases e <;> cases m <;> simp [TableRow.legal, and_assoc]

theorem TableRow.fresh_legal : TableRow.fresh.legal = true := by decide

theorem legalGeneration_next {g : Nat} (h : legalGeneration g = true) : legalGeneration (nextGeneration g) = true := by
  simp only [legalGeneration, Bool.and_eq_true, decide_eq_true_eq] at *
  unfold nextGeneration
  split <;> constructor <;> omega

/-- A legal row with an entry carries no mark, so that its entry may be replaced. -/
theorem TableRow.legal_rewrite {r : TableRow} {e e' : Entry} (h : r.legal = true) (he : r.entry = some e) (hl : e'.legal = true) :
    ({ r with entry := some e' } : TableRow).legal = true := by
  obtain ⟨hg, -, hm⟩ := TableRow.legal_iff.1 h
  refine TableRow.legal_iff.2 ⟨hg, fun _ h => by cases h; exact hl, fun m h => ?_⟩
  rw [(hm m h).1] at he
  cases he

/-! ### The elementary changes of the Timer Table -/

/-- R3: `e'` has the fields of `e` that an entry keeps while it is in use. -/
def Entry.SameIdentity (e e' : Entry) : Prop :=
  e'.domain = e.domain ∧ e'.ring = e.ring ∧ e'.kind = e.kind ∧ e'.cookie = e.cookie ∧ e'.faultOption = e.faultOption

theorem Entry.SameIdentity.refl (e : Entry) : e.SameIdentity e := ⟨rfl, rfl, rfl, rfl, rfl⟩

theorem Entry.SameIdentity.trans {e f g : Entry} (h : e.SameIdentity f) (h' : f.SameIdentity g) : e.SameIdentity g := by
  obtain ⟨h1, h2, h3, h4, h5⟩ := h
  obtain ⟨g1, g2, g3, g4, g5⟩ := h'
  exact ⟨g1.trans h1, g2.trans h2, g3.trans h3, g4.trans h4, g5.trans h5⟩

/-- R16, R17: what a mark left with a freed slot holds. -/
def PostingMark.Legal (m : PostingMark) : Prop :=
  legalGeneration m.generation = true ∧ m.entry.phase = .fired ∧ m.entry.legal = true

/-- A change that at most removes a mark and rewrites an entry leaves a fresh row fresh. -/
theorem TableRow.fresh_of_alike {r : TableRow} {g : Entry → Entry} (h : r.generation = TableRow.fresh.generation ∧
    r.entry = TableRow.fresh.entry.map g ∧ (r.mark = none ∨ r.mark = TableRow.fresh.mark)) : r = TableRow.fresh := by
  obtain ⟨h1, h2, h3⟩ := h
  have h3' : r.mark = none := h3.elim id id
  exact congr (congr (congrArg TableRow.mk h1) h2) h3'

/-- One change of the Timer Table that brings no entry into use. What it writes is legal where what it read was, given `L`. -/
inductive TimerTable.Move (L : Prop) (a b : TimerTable) : Prop
  /-- Neither the rows nor the free list change. -/
  | rest (hr : b.rows = a.rows) (hf : b.freeList = a.freeList)
  /-- The entry of a slot is replaced by one with its identity. -/
  | rewrite (k : Nat) (e e' : Entry) (he : (lookupRow a.rows k).entry = some e) (hs : e.SameIdentity e')
      (hl : L → e.legal = true → e'.legal = true)
      (hr : b.rows = storeRow a.rows k { lookupRow a.rows k with entry := some e' }) (hf : b.freeList = a.freeList)
  /-- R14, R16: a slot in use is freed, with or without a posting mark. -/
  | free (k : Nat) (e : Entry) (m : Option PostingMark) (he : (lookupRow a.rows k).entry = some e)
      (hm : L → legalGeneration (lookupRow a.rows k).generation = true → e.legal = true → ∀ q, m = some q → q.Legal)
      (hr : b.rows = storeRow a.rows k { generation := nextGeneration (lookupRow a.rows k).generation, entry := none, mark := m })
      (hf : b.freeList = a.freeList ++ [k])
  /-- R18: a slot's posting mark is removed. -/
  | unmark (k : Nat) (m : PostingMark) (hm : (lookupRow a.rows k).mark = some m)
      (hr : b.rows = storeRow a.rows k { lookupRow a.rows k with mark := none }) (hf : b.freeList = a.freeList)
  /-- R18, R184: every row is changed alike, marks at most removed and entries at most rewritten. -/
  | map (f : TableRow → TableRow) (g : Entry → Entry)
      (hfg : ∀ r, (f r).generation = r.generation ∧ (f r).entry = r.entry.map g ∧ ((f r).mark = none ∨ (f r).mark = r.mark))
      (hg : ∀ e, e.SameIdentity (g e) ∧ (e.legal = true → (g e).legal = true)) (hr : b.rows = mapRows f a.rows) (hf : b.freeList = a.freeList)
  /-- R22: a reset. -/
  | reset (hb : b = .reset)

/-- One change of the Timer Table that brings a FREE slot into use. -/
inductive TimerTable.Creation (L : Prop) (a b : TimerTable) : Prop
  /-- R13: the unmarked slot at the head of the free list is allocated. -/
  | allocate (k : Nat) (rest : List Nat) (e : Entry) (hk : a.freeList = k :: rest) (hm : (lookupRow a.rows k).mark = none)
      (hl : L → e.legal = true) (hr : b.rows = storeRow a.rows k { lookupRow a.rows k with entry := some e }) (hf : b.freeList = rest)
  /-- R64: an entry comes back from the mark of its slot. -/
  | unfree (k : Nat) (m : PostingMark) (p : Option PendingExpiry) (hm : (lookupRow a.rows k).mark = some m)
      (hl : L → m.entry.legal = true → m.entry.phase = .fired → ({ m.entry with pendingExpiry := p } : Entry).legal = true)
      (hr : b.rows = storeRow a.rows k { generation := m.generation, entry := some { m.entry with pendingExpiry := p }, mark := none })
      (hf : b.freeList = a.freeList.filter (· != k))

/-- What one command can do to the Timer Table: changes that bring no entry into use, or one that does. -/
def TimerTable.Step (L : Prop) (a b : TimerTable) : Prop := Relation.ReflTransGen (TimerTable.Move L) a b ∨ TimerTable.Creation L a b

/-! ### The table stays legal -/

/-- `State.TableLegal`, said of the table. -/
def TimerTable.Legal (a : TimerTable) : Prop :=
  a.wf = true ∧ (∀ p ∈ a.rows, p.1 < Config.tableSize) ∧ a.freeList.Nodup ∧
    ∀ k, k ∈ a.freeList ↔ k < Config.tableSize ∧ (lookupRow a.rows k).entry = none

theorem State.tableLegal_iff (s : State) : s.TableLegal ↔ s.table.Legal := Iff.rfl

theorem TimerTable.legal_reset : TimerTable.reset.Legal := by
  have hfree : TimerTable.reset.freeList = List.range Config.tableSize := by rw [TimerTable.reset]
  have hrows : TimerTable.reset.rows = [] := rfl
  unfold TimerTable.Legal
  rw [hfree, hrows]
  exact ⟨wf_reset, by simp, List.nodup_range, fun _ => ⟨fun h => ⟨List.mem_range.1 h, rfl⟩, fun h => List.mem_range.2 h.1⟩⟩

/-- A slot that does not read as fresh is one of the table's. -/
theorem TimerTable.Legal.slot_lt {a : TimerTable} (h : a.Legal) {k : Nat} (hk : lookupRow a.rows k ≠ TableRow.fresh) : k < Config.tableSize :=
  h.2.1 _ (mem_of_lookupRow hk)

/-- Storing a row keeps the table legal when the free list goes along with it. -/
theorem TimerTable.Legal.store {a b : TimerTable} (h : a.Legal) {k : Nat} {r : TableRow} (hk : k < Config.tableSize)
    (hr : b.rows = storeRow a.rows k r) (hn : b.freeList.Nodup) (hfree : k ∈ b.freeList ↔ r.entry = none)
    (hothers : ∀ j, j ≠ k → (j ∈ b.freeList ↔ j ∈ a.freeList)) : b.Legal := by
  obtain ⟨hwf, hlt, -, hiff⟩ := h
  refine ⟨by rw [TimerTable.wf, hr]; exact wfRows_storeRow hwf k r, fun p hp => ?_, hn, fun j => ?_⟩
  · rcases mem_storeRow (hr ▸ hp) with ⟨rfl, -⟩ | hp
    · exact hk
    · exact hlt p hp
  · rw [hr, lookupRow_storeRow]
    by_cases hj : j = k
    · simp [hj, hfree, hk]
    · simp [hj, hothers j hj, hiff j]

theorem TimerTable.Move.legal {L : Prop} {a b : TimerTable} (m : TimerTable.Move L a b) (h : a.Legal) : b.Legal := by
  have listed : ∀ {k}, (lookupRow a.rows k).entry ≠ none ∨ (lookupRow a.rows k).mark ≠ none → k < Config.tableSize := fun hk =>
    h.slot_lt fun hf => by simp [hf, TableRow.fresh] at hk
  have inUse : ∀ {k e}, (lookupRow a.rows k).entry = some e → k ∉ a.freeList := fun he hk => by simp [((h.2.2.2 _).1 hk).2] at he
  cases m with
  | rest hr hf => rwa [TimerTable.Legal, TimerTable.wf, hr, hf]
  | rewrite k e e' he hs hl hr hf =>
    refine h.store (listed (.inl (by simp [he]))) hr (hf ▸ h.2.2.1) ?_ fun j _ => by rw [hf]
    simpa [hf] using inUse he
  | free k e m he hm hr hf =>
    refine h.store (listed (.inl (by simp [he]))) hr ?_ (by simp [hf]) fun j hj => by simp [hf, hj]
    rw [hf]
    exact h.2.2.1.append (List.nodup_singleton k) (by simpa using inUse he)
  | unmark k m hm hr hf =>
    have hk := listed (k := k) (.inr (by simp [hm]))
    exact h.store hk hr (hf ▸ h.2.2.1) (by simp [hf, h.2.2.2, hk]) fun j _ => by rw [hf]
  | map f g hfg hg hr hf =>
    obtain ⟨hwf, hlt, hn, hiff⟩ := h
    have hfresh := TableRow.fresh_of_alike (hfg TableRow.fresh)
    refine ⟨by rw [TimerTable.wf, hr]; exact wfRows_mapRows f hwf, fun p hp => ?_, hf ▸ hn, fun k => ?_⟩
    · obtain ⟨q, hq, rfl⟩ := List.mem_map.1 (List.mem_of_mem_filter (hr ▸ hp))
      exact hlt q hq
    · rw [hf, hr, lookupRow_mapRows hfresh hwf, (hfg _).2.1, hiff]
      simp
  | reset hb => exact hb ▸ TimerTable.legal_reset

theorem TimerTable.Creation.legal {L : Prop} {a b : TimerTable} (m : TimerTable.Creation L a b) (h : a.Legal) : b.Legal := by
  obtain ⟨-, -, hn, hiff⟩ := id h
  cases m with
  | allocate k rest e hk hm hl hr hf =>
    rw [hk] at hn
    obtain ⟨hkr, hrest⟩ := List.nodup_cons.1 hn
    exact h.store ((hiff k).1 (by simp [hk])).1 hr (hf ▸ hrest) (by simp [hf, hkr]) fun j hj => by simp [hf, hk, hj]
  | unfree k m p hm hl hr hf =>
    refine h.store (h.slot_lt fun hfresh => by simp [hfresh, TableRow.fresh] at hm) hr (hf ▸ hn.filter _) (by simp [hf]) fun j hj => ?_
    simp [hf, hj]

theorem TimerTable.Step.legal {L : Prop} {a b : TimerTable} (m : TimerTable.Step L a b) (h : a.Legal) : b.Legal := by
  rcases m with m | m
  · induction m with
    | refl => exact h
    | tail _ m ih => exact m.legal ih
  · exact m.legal h

/-! ### The rows stay legal -/

/-- Every row is legal: the first clause of `State.EntriesLegal`. -/
def TimerTable.RowsLegal (a : TimerTable) : Prop := ∀ p ∈ a.rows, p.2.legal = true

theorem TimerTable.RowsLegal.row {a : TimerTable} (h : a.RowsLegal) (k : Nat) : (lookupRow a.rows k).legal = true :=
  lookupRow_ind (Q := fun r => r.legal = true) TableRow.fresh_legal h k

/-- An entry in use of a table with legal rows is legal. -/
theorem TimerTable.RowsLegal.entry {a : TimerTable} (h : a.RowsLegal) {k : Nat} {e : Entry} (he : (lookupRow a.rows k).entry = some e) :
    e.legal = true := (TableRow.legal_iff.1 (h.row k)).2.1 e he

theorem TimerTable.RowsLegal.store {a b : TimerTable} (h : a.RowsLegal) {k : Nat} {r : TableRow} (hr : b.rows = storeRow a.rows k r)
    (hl : r.legal = true) : b.RowsLegal := by
  intro p hp
  rcases mem_storeRow (hr ▸ hp) with ⟨rfl, -⟩ | hp
  · exact hl
  · exact h p hp

theorem TimerTable.Move.rowsLegal {L : Prop} (hL : L) {a b : TimerTable} (m : TimerTable.Move L a b) (h : a.RowsLegal) : b.RowsLegal := by
  cases m with
  | rest hr hf => exact fun p hp => h p (hr ▸ hp)
  | rewrite k e e' he hs hl hr hf => exact h.store hr (TableRow.legal_rewrite (h.row k) he (hl hL (h.entry he)))
  | free k e m he hm hr hf =>
    have hg := (TableRow.legal_iff.1 (h.row k)).1
    exact h.store hr (TableRow.legal_iff.2 ⟨legalGeneration_next hg, by simp, fun q hq => ⟨rfl, hm hL hg (h.entry he) q hq⟩⟩)
  | unmark k m hm hr hf =>
    obtain ⟨hg, he, -⟩ := TableRow.legal_iff.1 (h.row k)
    exact h.store hr (TableRow.legal_iff.2 ⟨hg, he, by simp⟩)
  | map f g hfg hg hr hf =>
    intro p hp
    obtain ⟨q, hq, rfl⟩ := List.mem_map.1 (List.mem_of_mem_filter (hr ▸ hp))
    obtain ⟨hgen, hent, hmark⟩ := TableRow.legal_iff.1 (h q hq)
    obtain ⟨h1, h2, h3⟩ := hfg q.2
    refine TableRow.legal_iff.2 ⟨by rw [h1]; exact hgen, fun e he => ?_, fun m hm => ?_⟩
    · obtain ⟨e', he', rfl⟩ := Option.map_eq_some_iff.1 (h2 ▸ he)
      exact (hg e').2 (hent e' he')
    · rcases h3 with h3 | h3
      · rw [h3] at hm; cases hm
      · obtain ⟨hnone, hm⟩ := hmark m (h3 ▸ hm)
        exact ⟨by simp [h2, hnone], hm⟩
  | reset hb => simp [hb, TimerTable.RowsLegal, TimerTable.reset]

theorem TimerTable.Creation.rowsLegal {L : Prop} (hL : L) {a b : TimerTable} (m : TimerTable.Creation L a b) (h : a.RowsLegal) : b.RowsLegal := by
  cases m with
  | allocate k rest e hk hm hl hr hf =>
    obtain ⟨hg, -, -⟩ := TableRow.legal_iff.1 (h.row k)
    exact h.store hr (TableRow.legal_iff.2 ⟨hg, fun _ he => by cases he; exact hl hL, fun m hm' => by simp [hm] at hm'⟩)
  | unfree k m p hm hl hr hf =>
    obtain ⟨-, hg, hp, he⟩ := (TableRow.legal_iff.1 (h.row k)).2.2 m hm
    exact h.store hr (TableRow.legal_iff.2 ⟨hg, fun _ h => by cases h; exact hl hL he hp, by simp⟩)

theorem TimerTable.moves_rowsLegal {L : Prop} (hL : L) {a b : TimerTable} (m : Relation.ReflTransGen (TimerTable.Move L) a b)
    (h : a.RowsLegal) : b.RowsLegal := by
  induction m with
  | refl => exact h
  | tail _ m ih => exact m.rowsLegal hL ih

theorem TimerTable.Step.rowsLegal {L : Prop} (hL : L) {a b : TimerTable} (m : TimerTable.Step L a b) (h : a.RowsLegal) : b.RowsLegal :=
  m.elim (fun m => TimerTable.moves_rowsLegal hL m h) (fun m => m.rowsLegal hL h)

/-! ### Entries in use keep their identity -/

/-- Every entry of `b` is an entry of `a`, by its slot and its identity. -/
def TimerTable.Inherits (a b : TimerTable) : Prop := ∀ k e', (lookupRow b.rows k).entry = some e' →
  ∃ e, (lookupRow a.rows k).entry = some e ∧ e.SameIdentity e'

theorem TimerTable.Inherits.refl (a : TimerTable) : a.Inherits a := fun _ e he => ⟨e, he, .refl e⟩

theorem TimerTable.Inherits.trans {a b c : TimerTable} (h : a.Inherits b) (h' : b.Inherits c) : a.Inherits c := fun k e'' he'' => by
  obtain ⟨e', he', hs'⟩ := h' k e'' he''
  obtain ⟨e, he, hs⟩ := h k e' he'
  exact ⟨e, he, hs.trans hs'⟩

theorem TimerTable.Move.inherits {L : Prop} {a b : TimerTable} (m : TimerTable.Move L a b) (h : a.wf = true) : a.Inherits b := by
  have store : ∀ {k r}, b.rows = storeRow a.rows k r →
      (∀ e', r.entry = some e' → ∃ e, (lookupRow a.rows k).entry = some e ∧ e.SameIdentity e') → a.Inherits b := by
    intro k r hr hk j e' he'
    rw [hr, lookupRow_storeRow] at he'
    by_cases hj : j = k
    · subst hj; exact hk e' (by simpa using he')
    · exact ⟨e', by simpa [hj] using he', .refl e'⟩
  cases m with
  | rest hr hf => exact fun k e he => ⟨e, hr ▸ he, .refl e⟩
  | rewrite k e e' he hs hl hr hf => exact store hr fun _ h => by cases h; exact ⟨e, he, hs⟩
  | free k e m he hm hr hf => exact store hr (by simp)
  | unmark k m hm hr hf => exact store hr fun e he => ⟨e, he, .refl e⟩
  | map f g hfg hg hr hf =>
    have hfresh := TableRow.fresh_of_alike (hfg TableRow.fresh)
    intro k e' he'
    rw [hr, lookupRow_mapRows hfresh h, (hfg _).2.1] at he'
    obtain ⟨e, he, rfl⟩ := Option.map_eq_some_iff.1 he'
    exact ⟨e, he, (hg e).1⟩
  | reset hb => intro k e' he'; simp [hb, TimerTable.reset, lookupRow, TableRow.fresh] at he'

theorem TimerTable.moves_inherits {L : Prop} {a b : TimerTable} (m : Relation.ReflTransGen (TimerTable.Move L) a b) (h : a.Legal) :
    a.Inherits b := by
  have both : a.Inherits b ∧ b.Legal := by
    induction m with
    | refl => exact ⟨.refl a, h⟩
    | tail _ m ih => exact ⟨ih.1.trans (m.inherits ih.2.1), m.legal ih.2⟩
  exact both.1

/-- A command leaves to an entry in use its identity, or frees it; so of a table that is legal. -/
theorem TimerTable.Step.identity {L : Prop} {a b : TimerTable} (m : TimerTable.Step L a b) (ha : a.Legal) (hl : a.RowsLegal) {k : Nat}
    {e e' : Entry} (he : (lookupRow a.rows k).entry = some e) (he' : (lookupRow b.rows k).entry = some e') : e.SameIdentity e' := by
  have other : ∀ {j r}, b.rows = storeRow a.rows j r → (lookupRow a.rows j).entry = none → e.SameIdentity e' := by
    intro j r hr hj
    have hkj : k ≠ j := by rintro rfl; simp [hj] at he
    rw [hr, lookupRow_storeRow, if_neg hkj, he] at he'
    cases he'; exact .refl e
  rcases m with m | m
  · obtain ⟨f, hf, hs⟩ := TimerTable.moves_inherits m ha k e' he'
    rw [he] at hf; cases hf; exact hs
  · cases m with
    | allocate j rest _ hk _ _ hr _ => exact other hr ((ha.2.2.2 j).1 (by simp [hk])).2
    | unfree j m p hm _ hr _ => exact other hr ((TableRow.legal_iff.1 (hl.row j)).2.2 m hm).1

end Sys2Proof.Machine
end

section
/-! What the operations over the Timer Table do to it, in elementary changes. -/

namespace Sys2Proof.Machine

/-! ### Entries that the operations write -/

theorem placement_eq_dueQueue {w d : Nat} : placement w d = .dueQueue ↔ d ≤ w := by
  unfold placement; repeat' split
  all_goals simp_all

/-- R28: a placed entry is legal when its fields are in range and fit its kind. -/
theorem Entry.placedAt_legal {e : Entry} (hr : e.ranged = true) (hf : e.fits = true) (w : Nat) : (e.placedAt w).legal = true := by
  refine Entry.legal_of hr hf ?_
  unfold Entry.placed Entry.placedAt
  by_cases h : e.deadline ≤ w
  · simp [h, placement_eq_dueQueue.2 h]
  · simp only [if_neg h]
    simpa [placement_eq_dueQueue] using h

/-- R53, R59, R60: the pending expiry after a fire is in range. -/
theorem recordFire_legal {old : Option PendingExpiry} {kind : ExpiryKind} {deadline missed : Nat} {holdover : Bool}
    (ho : old.all (·.legal) = true) (hd : deadline ≤ Config.maxTick) : (recordFire old kind deadline missed holdover).legal = true := by
  cases old with
  | none => simp [recordFire, PendingExpiry.legal, saturate, hd, Config.maxCount16]
  | some p =>
    simp only [Option.all_some, PendingExpiry.legal, Bool.and_eq_true, decide_eq_true_eq] at ho
    simp [recordFire, PendingExpiry.legal, saturate, hd, Config.maxCount16]

/-- R64: the merge of a failed record into a pending expiry is in range. -/
theorem mergeExpiry_legal {p q : PendingExpiry} (hp : p.legal = true) (hq : q.legal = true) : (mergeExpiry p q).legal = true := by
  simp only [PendingExpiry.legal, Bool.and_eq_true, decide_eq_true_eq] at hp hq
  simp [mergeExpiry, PendingExpiry.legal, saturate, Config.maxCount16]
  omega

/-- A legal entry's deadline is a tick value. -/
theorem Entry.deadline_le {e : Entry} (h : e.ranged = true) : e.deadline ≤ Config.maxTick := by
  simp only [Entry.ranged, Bool.and_eq_true, decide_eq_true_eq] at h
  exact h.1.1.1.1.2

/-- A legal entry's pending expiry is legal. -/
theorem Entry.pending_legal {e : Entry} {p : PendingExpiry} (h : e.legal = true) (hp : e.pendingExpiry = some p) : p.legal = true := by
  have hr := (Entry.legal_iff.1 h).1
  simp only [Entry.ranged, Bool.and_eq_true, hp, Option.all_some] at hr
  exact hr.2

/-- Another pending expiry keeps an entry's fields in range. -/
theorem Entry.ranged_withPending {e : Entry} (h : e.ranged = true) {p : Option PendingExpiry} (hp : p.all (·.legal) = true) :
    ({ e with pendingExpiry := p } : Entry).ranged = true := by
  simp only [Entry.ranged, Bool.and_eq_true] at h ⊢
  exact ⟨h.1, hp⟩

/-- R53: the fire counted in the entry keeps its fields in range. -/
theorem Entry.fired_ranged {e : Entry} (h : e.ranged = true) (w : Nat) (holdover : Bool) : (e.fired w holdover).ranged = true := by
  have hd := Entry.deadline_le h
  refine Entry.ranged_withPending (e := { e with totalFires := saturate Config.maxCount32 (e.totalFires + 1) }) ?_ ?_
  · simp only [Entry.ranged, Bool.and_eq_true, saturate] at h ⊢
    simpa [h] using h
  · simp only [Entry.ranged, Bool.and_eq_true] at h
    exact recordFire_legal h.2 hd

/-- The entry that a fire leaves: FIRED, placed again, or TRIPPED, by its kind (R54 to R58). -/
def Entry.afterFire (e : Entry) (w : Nat) : Entry :=
  match e.kind with
  | .oneshot => { e with phase := .fired, location := none }
  | .periodic =>
    if e.lastFire w then { e with phase := .fired, location := none, fireLimit := none }
    else ({ e with deadline := nextDeadline w e.deadline (e.period.getD 0), fireLimit := e.fireLimit.map (· - 1) } : Entry).placedAt w
  | .guard => { e with phase := .tripped, location := none }

theorem Entry.afterFire_identity (e : Entry) (w : Nat) : e.SameIdentity (e.afterFire w) := by
  unfold Entry.afterFire
  split
  · exact .refl e
  · split <;> exact .refl e
  · exact .refl e

/-- R54 to R58: what a fire leaves of a legal entry that has counted it is legal. -/
theorem Entry.afterFire_legal {e : Entry} (hr : e.ranged = true) (hf : e.fits = true) (hp : e.pendingExpiry.isSome = true) (w : Nat) :
    (e.afterFire w).legal = true := by
  unfold Entry.afterFire
  split <;> rename_i hk
  · exact Entry.legal_of hr hf (by simp [Entry.placed, hk, hp])
  · split <;> rename_i hlast
    · refine Entry.legal_of ?_ (by simpa [Entry.fits, hk] using hf) (by simp [Entry.placed, hk, hp])
      simp only [Entry.ranged, Bool.and_eq_true] at hr ⊢
      exact ⟨⟨hr.1.1, rfl⟩, hr.2⟩
    · simp only [Entry.lastFire, Bool.or_eq_true, beq_iff_eq, decide_eq_true_eq, not_or, not_lt] at hlast
      refine Entry.placedAt_legal ?_ (by simpa [Entry.fits, hk] using hf) w
      simp only [Entry.ranged, Bool.and_eq_true, decide_eq_true_eq] at hr ⊢
      refine ⟨⟨⟨⟨⟨hr.1.1.1.1.1, hlast.2⟩, hr.1.1.1.2⟩, hr.1.1.2⟩, ?_⟩, hr.2⟩
      cases hl : e.fireLimit with
      | none => rfl
      | some n =>
        have h1 := hr.1.2
        have h2 := hlast.1
        simp only [hl, Option.all_some, Bool.and_eq_true, decide_eq_true_eq, Option.some.injEq, Option.map_some] at h1 h2 ⊢
        omega
  · exact Entry.legal_of hr hf (by simp [Entry.placed, hk])

/-! ### Changes of the Timer Table by the operations over it -/

/-- `t`'s Timer Table is that of `s` after changes that bring no entry into use. -/
def State.Changes (L : Prop) (s t : State) : Prop := Relation.ReflTransGen (TimerTable.Move L) s.table t.table

variable {L : Prop} {s t u : State}

theorem State.Changes.refl (s : State) : s.Changes L s := Relation.ReflTransGen.refl

theorem State.Changes.trans (h : s.Changes L t) (h' : t.Changes L u) : s.Changes L u := Relation.ReflTransGen.trans h h'

theorem State.Changes.of_move (h : TimerTable.Move L s.table t.table) : s.Changes L t := .single h

/-- An operation that changes neither a row nor the free list. -/
theorem State.Changes.of_same (hr : t.table.rows = s.table.rows) (hf : t.table.freeList = s.table.freeList) : s.Changes L t :=
  .of_move (.rest hr hf)

theorem State.Changes.of_eq (h : t.table = s.table) : s.Changes L t := .of_same (by rw [h]) (by rw [h])

theorem State.Changes.step (h : s.Changes L t) : TimerTable.Step L s.table t.table := .inl h

/-- The entry of a slot in use is replaced by one with its identity. -/
theorem State.Changes.rewrite {k : Nat} {e e' : Entry} (he : s.entryAt k = some e) (hs : e.SameIdentity e')
    (hl : L → e.legal = true → e'.legal = true) (hr : t.table.rows = storeRow s.table.rows k { s.rowAt k with entry := some e' })
    (hf : t.table.freeList = s.table.freeList) : s.Changes L t := .of_move (.rewrite k e e' he hs hl hr hf)

theorem State.changes_setEntry {k : Nat} {e e' : Entry} (he : s.entryAt k = some e) (hs : e.SameIdentity e')
    (hl : L → e.legal = true → e'.legal = true) : s.Changes L (s.setEntry k e') := .rewrite he hs hl rfl rfl

/-- R28: the Timer Table after a placement. -/
theorem State.place_rows (s : State) (k : Nat) (e : Entry) :
    (s.place k e).table.rows = storeRow s.table.rows k { s.rowAt k with entry := some (e.placedAt s.wheel.time) } := by
  unfold State.place Entry.placedAt
  simp only [placement_eq_dueQueue]
  rfl

theorem State.changes_place {k : Nat} {e e' : Entry} (he : s.entryAt k = some e) (hs : e.SameIdentity e')
    (hl : L → e.legal = true → e'.ranged = true ∧ e'.fits = true) : s.Changes L (s.place k e') :=
  .rewrite he (e' := e'.placedAt s.wheel.time) hs (fun h h' => Entry.placedAt_legal (hl h h').1 (hl h h').2 _) (s.place_rows k e') (by simp)

theorem State.changes_leavePlace (s : State) (k : Nat) (e : Entry) : s.Changes L (s.leavePlace k e) := .of_eq (by simp)

@[simp] theorem State.entryAt_leavePlace (s : State) (k : Nat) (e : Entry) (j : Nat) : (s.leavePlace k e).entryAt j = s.entryAt j := by
  simp [State.entryAt, State.rowAt]

/-- R14: the Timer Table after a free. -/
theorem State.freeEntry_table {k : Nat} {e : Entry} (h : s.entryAt k = some e) : (s.freeEntry k).table = { s.table with
    rows := storeRow s.table.rows k { generation := nextGeneration (s.generationAt k), entry := none, mark := none }
    freeList := s.table.freeList ++ [k] } := by
  unfold State.freeEntry
  rw [h]
  dsimp only [State.setRow]
  split <;> simp

theorem State.freeEntry_of_free {k : Nat} (h : s.entryAt k = none) : s.freeEntry k = s := by
  unfold State.freeEntry
  rw [h]

theorem State.changes_freeEntry (s : State) (k : Nat) : s.Changes L (s.freeEntry k) := by
  cases h : s.entryAt k with
  | none => rw [State.freeEntry_of_free h]; exact .refl s
  | some e => exact .of_move (.free k e none h (by simp) (by rw [State.freeEntry_table h]; rfl) (by rw [State.freeEntry_table h]))

theorem State.changes_freeAll (s : State) (l : List Nat) : s.Changes L (s.freeAll l) :=
  State.forEach_ind (Q := s.Changes L) (.refl s) (fun _ h => h) (fun k t _ h => h.trans (t.changes_freeEntry k))

theorem State.changes_rollback (s : State) (d : Fin 64) : s.Changes L (s.rollback d) := by
  unfold State.rollback
  exact (s.changes_freeAll ((s.entries.filter (fun p => p.2.importMark)).map Prod.fst)).trans (.of_same (by simp) (by simp))

theorem State.changes_failJob (s : State) (j : Job) (st : Status) : s.Changes L (s.failJob j st) := by
  unfold State.failJob
  split
  case h_4 => exact (s.changes_rollback j.domain).trans (.of_same (by simp) (by simp))
  all_goals exact .of_same (by simp) (by simp)

theorem State.changes_removeMarks (s : State) (d : Fin 64) : s.Changes L (s.removeMarks d) := by
  refine .of_move (.map (fun r => if r.mark.any (fun m => m.entry.domain == d) then { r with mark := none } else r) id (fun r => ?_) (fun e => ⟨.refl e, id⟩) rfl rfl)
  split <;> simp

theorem State.changes_clearImportMarks (s : State) : s.Changes L s.clearImportMarks :=
  .of_move (.map (fun r => { r with entry := r.entry.map (fun e => { e with importMark := false }) })
    (fun e => { e with importMark := false }) (fun _ => ⟨rfl, rfl, .inr rfl⟩) (fun e => ⟨.refl e, id⟩) rfl rfl)

theorem State.changes_makeDue (s : State) (k : Nat) : s.Changes L (s.makeDue k) := by
  unfold State.makeDue
  split
  · exact .refl s
  · rename_i e he
    refine State.changes_setEntry he (.refl e) fun _ h => ?_
    obtain ⟨hr, hf, -⟩ := Entry.legal_iff.1 h
    exact Entry.legal_of hr hf (by simp [Entry.placed])

theorem State.changes_splice (s : State) (l : List Nat) : s.Changes L (s.splice l) := by
  have hfold : s.Changes L (l.foldl State.makeDue s) :=
    foldl_ind (Q := s.Changes L) (.refl s) (fun t k _ h => h.trans (t.changes_makeDue k))
  exact hfold.trans (.of_eq rfl)

theorem State.changes_replace (s : State) (k : Nat) : s.Changes L (s.replace k) := by
  unfold State.replace
  split
  · exact .refl s
  · rename_i e he
    refine (s.changes_leavePlace k e).trans (State.changes_place (e := e) (by simpa using he) (.refl e) fun _ h => ?_)
    obtain ⟨hr, hf, -⟩ := Entry.legal_iff.1 h
    exact ⟨hr, hf⟩

theorem State.changes_moveDue {k : Nat} {e : Entry} (he : s.entryAt k = some e) : s.Changes L (s.moveDue k e) := by
  have hset : (s.leavePlace k e).Changes L ((s.leavePlace k e).setEntry k { e with phase := .due, location := some .dueQueue }) := by
    refine State.changes_setEntry (by simpa using he) (.refl e) fun _ h => ?_
    obtain ⟨hr, hf, -⟩ := Entry.legal_iff.1 h
    exact Entry.legal_of hr hf (by simp [Entry.placed])
  exact ((s.changes_leavePlace k e).trans hset).trans (.of_eq rfl)

theorem State.changes_discard (s : State) (k : Nat) (e : Entry) : s.Changes L (s.discard k e) :=
  (s.changes_freeEntry k).trans (.of_eq (by simp [State.discard]))

theorem State.changes_hold {k : Nat} {e : Entry} (he : s.entryAt k = some e) : s.Changes L (s.hold k e) := by
  have hset : (s.leavePlace k e).Changes L ((s.leavePlace k e).setEntry k { e with phase := .held, location := none }) := by
    refine State.changes_setEntry (by simpa using he) (.refl e) fun _ h => ?_
    obtain ⟨hr, hf, -⟩ := Entry.legal_iff.1 h
    exact Entry.legal_of hr hf (by simp [Entry.placed])
  exact ((s.changes_leavePlace k e).trans hset).trans (.of_eq (by simp [State.hold]))

/-- R54 to R58: the Timer Table after the kind's own change of a fire. -/
theorem State.fireKind_rows (s : State) (k : Nat) (e : Entry) :
    (s.fireKind k e).table.rows = storeRow s.table.rows k { s.rowAt k with entry := some (e.afterFire s.wheel.time) } ∧
      (s.fireKind k e).table.freeList = s.table.freeList := by
  unfold State.fireKind Entry.afterFire
  cases e.kind with
  | oneshot => exact ⟨rfl, rfl⟩
  | periodic =>
    dsimp only
    split
    · exact ⟨rfl, rfl⟩
    · exact ⟨s.place_rows k _, by simp⟩
  | guard => dsimp only; rw [State.countTrip_frame _ _ |>.2.2.2.1]; exact ⟨rfl, rfl⟩

theorem State.changes_fireKind {k : Nat} {e : Entry} (he : s.entryAt k = some e) (w : Nat) (holdover : Bool) :
    s.Changes L (s.fireKind k (e.fired w holdover)) := by
  refine .rewrite he ((e.fired w holdover).afterFire_identity _) (fun _ h => ?_) (s.fireKind_rows k _).1 (s.fireKind_rows k _).2
  obtain ⟨hr, hf, -⟩ := Entry.legal_iff.1 h
  exact Entry.afterFire_legal (Entry.fired_ranged hr w holdover) hf rfl _

/-- R161, R63: the take of a pending expiry for writing; the Timer Table of a FIRED entry's slot, freed with its mark. -/
theorem State.takeExpiry_fired_table {c : Fin 8} {k : Nat} {e : Entry} {p : PendingExpiry} (he : s.entryAt k = some e)
    (hp : e.pendingExpiry = some p) (hf : e.phase = .fired) : (s.takeExpiry c k).table = { s.table with
      rows := storeRow s.table.rows k
        { generation := nextGeneration (s.generationAt k)
          entry := none
          mark := some { generation := s.generationAt k, entry := e, ring := c, ringSlot := (s.cr c).tail, write := s.poster.writes } }
      freeList := s.table.freeList ++ [k] } := by
  unfold State.takeExpiry
  simp only [he, hp]
  rw [if_pos hf]
  generalize hv : s.takeForWriting c false (expiryRecord k (s.generationAt k) e p) (.expiry k (s.generationAt k) p) = v
  generalize hw : v.setEntry k { e with pendingExpiry := none } = w
  have hvt : v.table = s.table := by rw [← hv]; simp
  have hrows : v.rowAt k = s.rowAt k := State.rowAt_congr (by rw [hvt]) k
  have hrow : w.rowAt k = { s.rowAt k with entry := some { e with pendingExpiry := none } } := by rw [← hw]; simp [hrows]
  have he' : w.entryAt k = some { e with pendingExpiry := none } := by rw [State.entryAt, hrow]
  have hwt : w.table = { s.table with rows := storeRow s.table.rows k (w.rowAt k) } := by
    rw [hrow, ← hw, State.setEntry, State.setRow, hrows, hvt]
  rw [State.setRow, (State.freeEntry_freed he').1, State.freeEntry_table he', State.generationAt, hrow, hwt]
  simp [storeRow_storeRow, State.generationAt]

theorem State.takeExpiry_nothing {c : Fin 8} {k : Nat} (h : ∀ e p, s.entryAt k = some e → e.pendingExpiry ≠ some p) :
    s.takeExpiry c k = s := by
  unfold State.takeExpiry
  split
  · rfl
  · split
    · rfl
    · rename_i e he _ p hp
      exact absurd hp (h e p he)

theorem State.takeExpiry_unfired {c : Fin 8} {k : Nat} {e : Entry} {p : PendingExpiry} (he : s.entryAt k = some e)
    (hp : e.pendingExpiry = some p) (hf : e.phase ≠ .fired) : s.takeExpiry c k = (s.takeForWriting c false
      (expiryRecord k (s.generationAt k) e p) (.expiry k (s.generationAt k) p)).setEntry k { e with pendingExpiry := none } := by
  unfold State.takeExpiry
  simp only [he, hp, hf, if_false]

theorem State.changes_takeExpiry (s : State) (c : Fin 8) (k : Nat) : s.Changes L (s.takeExpiry c k) := by
  by_cases h : ∃ e p, s.entryAt k = some e ∧ e.pendingExpiry = some p
  · obtain ⟨e, p, he, hp⟩ := h
    by_cases hf : e.phase = .fired
    · have htable := State.takeExpiry_fired_table (c := c) he hp hf
      refine .of_move (.free k e (some _) he (fun _ hg hl q hq => ?_) (by rw [htable]; rfl) (by rw [htable]))
      cases hq
      exact ⟨hg, hf, hl⟩
    · rw [State.takeExpiry_unfired he hp hf]
      refine .rewrite he (.refl e) (e' := { e with pendingExpiry := none }) (fun _ h => ?_) (by simp [State.setEntry, State.setRow, State.rowAt]) (by simp)
      obtain ⟨hr, hfit, hplaced⟩ := Entry.legal_iff.1 h
      refine Entry.legal_of (Entry.ranged_withPending hr rfl) hfit ?_
      unfold Entry.placed at hplaced ⊢
      cases hph : e.phase <;> simp_all
  · rw [State.takeExpiry_nothing fun e p he hp => h ⟨e, p, he, hp⟩]
    exact .refl s

theorem State.changes_handExpiry (s : State) (c : Fin 8) (k : Nat) : s.Changes L (s.handExpiry c k) := by
  unfold State.handExpiry
  split
  · exact s.changes_takeExpiry c k
  · exact .of_eq (by simp)

theorem State.changes_fire {k : Nat} {e : Entry} (he : s.entryAt k = some e) : s.Changes L (s.fire k e) := by
  have hkind : s.Changes L ((s.leavePlace k e).fireKind k (e.fired s.wheel.time (s.timebase.state == .holdover))) :=
    (s.changes_leavePlace k e).trans (State.changes_fireKind (by simpa using he) _ _)
  unfold State.fire
  dsimp only
  split
  · exact hkind.trans (State.changes_handExpiry _ _ _)
  · exact hkind

theorem State.changes_takeEntry {k : Nat} {e : Entry} (he : s.entryAt k = some e) : s.Changes L (s.takeEntry k e) := by
  unfold State.takeEntry
  split
  · exact s.changes_discard k e
  · split
    · exact State.changes_hold he
    · exact State.changes_fire he

theorem State.changes_clearMark {k : Nat} {m : PostingMark} (h : s.markAt k = some m) : s.Changes L (s.clearMark k) :=
  .of_move (.unmark k m h rfl rfl)

theorem State.changes_writeEnded (s : State) (q : DmaRequest) : s.Changes L (s.writeEnded q) := by
  unfold State.writeEnded
  split
  · split
    · rename_i k _ _ hm
      cases hk : s.markAt k with
      | none => simp [hk] at hm
      | some m => exact State.changes_clearMark hk
    · exact .refl s
  · exact .refl s

end Sys2Proof.Machine
end

section
/-! What every command keeps of the Timer Table, of the requests in flight and of the creation claim under way. -/

namespace Sys2Proof.Machine

/-! ### Requests in flight stay legal -/

/-- Every request of `t` in flight was in flight in `s`, or is legal. -/
def State.DmaKept (s t : State) : Prop := ∀ q ∈ t.host.dma, q ∈ s.host.dma ∨ q.legal = true

variable {L : Prop} {s t u : State}

theorem State.DmaKept.of_eq (h : t.host.dma = s.host.dma) : s.DmaKept t := fun _ hq => .inl (h ▸ hq)

theorem State.DmaKept.refl (s : State) : s.DmaKept s := .of_eq rfl

theorem State.DmaKept.trans (h : s.DmaKept t) (h' : t.DmaKept u) : s.DmaKept u := fun q hq => (h' q hq).elim (h q) .inr

theorem State.DmaKept.push {q : DmaRequest} (hq : q.legal = true) (h : t.host.dma = s.host.dma ++ [q]) : s.DmaKept t := by
  intro p hp
  rcases List.mem_append.1 (h ▸ hp) with hp | hp
  · exact .inl hp
  · exact .inr (List.mem_singleton.1 hp ▸ hq)

theorem State.dmaKept_pushDma {q : DmaRequest} (hq : q.legal = true) : s.DmaKept (s.pushDma q) := .push hq rfl

theorem State.dmaKept_endDma (s : State) (p : DmaRequest → Bool) : s.DmaKept (s.endDma p) := fun _ hq => .inl (List.mem_of_mem_eraseP hq)

theorem State.dmaKept_sendMessage (s : State) (c : Fin 8) : s.DmaKept (s.sendMessage c) := by
  unfold State.sendMessage
  exact .push (q := .messageWrite c (s.cr c).messageAddress (s.cr c).messageData) rfl (by simp)

/-- A take for writing issues a legal record write, as long as what it keeps of an expiry is legal. -/
theorem State.dmaKept_takeForWriting (s : State) (c : Fin 8) (b : Bool) (r : Completion) {o : RecordOrigin}
    (ho : ∀ k g p, o = .expiry k g p → p.legal = true) : s.DmaKept (s.takeForWriting c b r o) := by
  have hq : ∀ n m a d, (DmaRequest.recordWrite c n m a d o).legal = true := fun n m a d => by
    cases o with
    | expiry k g p => exact ho k g p rfl
    | completion => rfl
    | event => rfl
  unfold State.takeForWriting
  dsimp only
  split
  · exact (State.DmaKept.push (hq _ _ _ _) rfl).trans (State.dmaKept_sendMessage _ c)
  · exact .push (hq _ _ _ _) rfl

theorem State.dmaKept_handCompletion (s : State) (c : Fin 8) (r : Completion) : s.DmaKept (s.handCompletion c r) := by
  unfold State.handCompletion
  split
  · exact s.dmaKept_takeForWriting c true r (by simp)
  · exact .of_eq (by simp)

theorem State.dmaKept_reply (s : State) (k : Ticket) (r : Reply) : s.DmaKept (s.reply k r) := s.dmaKept_handCompletion _ _

theorem State.dmaKept_finishClosing (s : State) (i : Fin 8) : s.DmaKept (s.finishClosing i) := by
  unfold State.finishClosing State.handHeld
  split
  · split
    · exact .of_eq (by simp)
    · exact (State.DmaKept.of_eq (by simp)).trans (State.dmaKept_handCompletion _ _ _)
  · exact .refl s

theorem State.dmaKept_endCommand (s : State) (k : Ticket) : s.DmaKept (s.endCommand k) :=
  (State.DmaKept.of_eq rfl).trans (State.dmaKept_finishClosing _ _)

theorem State.dmaKept_answer (s : State) (k : Ticket) (r : Reply) : s.DmaKept (s.answer k r) :=
  (s.dmaKept_reply k r).trans (State.dmaKept_endCommand _ _)

theorem State.dmaKept_tick (s : State) : s.DmaKept s.tick := by
  unfold State.tick
  exact State.forEach_ind (Q := s.DmaKept) (.of_eq (by simp)) (fun _ h => h) fun k t _ h => h.trans (t.dmaKept_sendMessage _)

theorem State.dmaKept_countEdge (s : State) : s.DmaKept s.countEdge := by
  unfold State.countEdge
  split
  · exact (State.DmaKept.of_eq rfl).trans (State.dmaKept_tick _)
  · exact .of_eq rfl

theorem State.dmaKept_countEdges (n : Nat) : ∀ s : State, s.DmaKept (State.countEdges n s) := by
  induction n with
  | zero => exact fun s => .refl s
  | succ n ih => exact fun s => s.dmaKept_countEdge.trans (ih _)

theorem State.dmaKept_goodRunEvent (s : State) (n : Nat) : s.DmaKept (s.goodRunEvent n) := by
  unfold State.goodRunEvent
  dsimp only
  split
  case h_2 => exact (State.DmaKept.of_eq rfl).trans (State.dmaKept_countEdge _)
  all_goals exact .of_eq rfl

theorem State.dmaKept_plainEdge (s : State) (n : Nat) : s.DmaKept (s.plainEdge n) := by
  unfold State.plainEdge
  dsimp only
  split
  · exact (State.DmaKept.of_eq rfl).trans (State.dmaKept_countEdge _)
  · exact .of_eq rfl

theorem State.dmaKept_writeQueue (s : State) (c : Fin 8) : s.DmaKept (s.writeQueue c) := by
  unfold State.writeQueue
  exact foldl_ind (Q := s.DmaKept) (.of_eq (by simp)) fun t q _ h => h.trans (t.dmaKept_takeForWriting c true q (by simp))

theorem State.dmaKept_holdArbitration (s : State) : s.DmaKept s.holdArbitration := by
  unfold State.holdArbitration State.startFetch
  split
  · split
    · exact .refl s
    · rename_i i f _
      exact .push (q := .fetchRead i _) rfl rfl
  · exact .refl s

theorem State.dmaKept_issue (s : State) {q : Job → DmaRequest} (hq : ∀ j, (q j).legal = true) : s.DmaKept (s.issue q) := by
  unfold State.issue
  split
  · exact .refl s
  · exact .push (hq _) rfl

theorem Job.firstTransfer_legal (j : Job) : j.firstTransfer.legal = true := by
  unfold Job.firstTransfer; split <;> rfl

theorem Job.nextRead_legal (j : Job) : j.nextRead.legal = true := by
  unfold Job.nextRead; split <;> rfl

theorem State.dmaKept_beginTransfers (s : State) : s.DmaKept s.beginTransfers :=
  (State.DmaKept.of_eq rfl).trans (State.dmaKept_issue _ Job.firstTransfer_legal)

theorem State.dmaKept_startJob (s : State) (j : Job) (b : TransferBusy) : s.DmaKept (s.startJob j b) := by
  unfold State.startJob
  dsimp only
  split
  · exact (State.DmaKept.of_eq rfl).trans (State.dmaKept_beginTransfers _)
  · exact .of_eq rfl

theorem State.dmaKept_orphans (h : t.host.dma = s.host.dma.map DmaRequest.orphan) : s.DmaKept t := by
  intro q hq
  obtain ⟨p, hp, rfl⟩ := List.mem_map.1 (h ▸ hq)
  cases p with
  | fetchRead | recordWrite | messageWrite => exact .inl hp
  | transferRead | transferWrite => exact .inr rfl

theorem State.dmaKept_endJob (s : State) (j : Job) (st : Status) (n : Nat) (w : DWord) : s.DmaKept (s.endJob j st n w) := by
  unfold State.endJob
  exact (State.dmaKept_orphans rfl).trans (State.dmaKept_reply _ _ _)

theorem State.dmaKept_failJob (s : State) (j : Job) (st : Status) : s.DmaKept (s.failJob j st) := by
  unfold State.failJob
  split
  case h_4 => exact (State.DmaKept.of_eq (t := s.rollback j.domain) (by simp)).trans (State.dmaKept_endJob _ _ _ _ _)
  all_goals exact s.dmaKept_endJob _ _ _ _

/-- The take of a legal entry's pending expiry issues a legal write. -/
theorem State.dmaKept_takeExpiry {c : Fin 8} {k : Nat} (h : s.table.RowsLegal) : s.DmaKept (s.takeExpiry c k) := by
  unfold State.takeExpiry
  split
  · exact .refl s
  · rename_i e he
    split
    · exact .refl s
    · rename_i p hp
      have hwrite := s.dmaKept_takeForWriting c false (expiryRecord k (s.generationAt k) e p) (o := .expiry k (s.generationAt k) p)
        (by rintro _ _ _ ⟨⟩; exact Entry.pending_legal (h.entry he) hp)
      dsimp only
      split
      · exact hwrite.trans (.of_eq (by simp))
      · exact hwrite.trans (.of_eq (by simp))

theorem State.dmaKept_handExpiry {c : Fin 8} {k : Nat} (h : s.table.RowsLegal) : s.DmaKept (s.handExpiry c k) := by
  unfold State.handExpiry
  split
  · exact State.dmaKept_takeExpiry h
  · exact .of_eq (by simp)

theorem State.dmaKept_takeEntry {k : Nat} {e : Entry} (he : s.entryAt k = some e) (h : s.table.RowsLegal) : s.DmaKept (s.takeEntry k e) := by
  unfold State.takeEntry
  split
  · exact .of_eq (by simp)
  · split
    · exact .of_eq (by simp)
    · unfold State.fire
      dsimp only
      split
      · have hkind : s.Changes True ((s.leavePlace k e).fireKind k (e.fired s.wheel.time (s.timebase.state == .holdover))) :=
          (s.changes_leavePlace k e).trans (State.changes_fireKind (by simpa using he) _ _)
        exact (State.DmaKept.of_eq (by simp)).trans (State.dmaKept_handExpiry (TimerTable.moves_rowsLegal trivial hkind h))
      · exact .of_eq (by simp)

/-! ### The record of the creation claim under way stays well formed -/

/-- The record of `t`'s creation claim was that of `s`, or is well formed. -/
def State.CreationKept (s t : State) : Prop := ∀ j r, t.transfer.job = some j → j.creation = some r →
  wellFormedRecord r = true ∨ ∃ i, s.transfer.job = some i ∧ i.creation = some r

theorem State.CreationKept.of_eq (h : t.transfer.job = s.transfer.job) : s.CreationKept t := fun j _ hj hr => .inr ⟨j, h ▸ hj, hr⟩

theorem State.CreationKept.refl (s : State) : s.CreationKept s := .of_eq rfl

theorem State.CreationKept.of_none (h : t.transfer.job = none) : s.CreationKept t := fun _ _ hj => by simp [h] at hj

theorem State.CreationKept.trans (h : s.CreationKept t) (h' : t.CreationKept u) : s.CreationKept u := fun j r hj hr =>
  (h' j r hj hr).elim .inl fun ⟨i, hi, hir⟩ => h i r hi hir

/-- A change of the job record that leaves the creation claim as it is. -/
theorem State.CreationKept.of_map {f : Job → Job} (hf : ∀ j, (f j).creation = j.creation) (h : t.transfer.job = s.transfer.job.map f) :
    s.CreationKept t := fun j r hj hr => by
  obtain ⟨i, hi, rfl⟩ := Option.map_eq_some_iff.1 (h ▸ hj)
  exact .inr ⟨i, hi, hf i ▸ hr⟩

theorem Job.begun_creation (j : Job) : j.begun.creation = j.creation := by
  unfold Job.begun; split <;> rfl

theorem State.creationKept_beginTransfers (s : State) : s.CreationKept s.beginTransfers :=
  .of_map Job.begun_creation (by simp [State.beginTransfers])

theorem State.creationKept_startJob (s : State) {j : Job} (hj : j.creation = none) (b : TransferBusy) : s.CreationKept (s.startJob j b) := by
  have start : ∀ t : State, t.transfer.job = some j → s.CreationKept t := fun t ht i r hi hr => by
    rw [ht] at hi; cases hi; rw [hj] at hr; cases hr
  unfold State.startJob
  dsimp only
  split
  · exact (start _ rfl).trans (State.creationKept_beginTransfers _)
  · exact start _ rfl

/-! ### What a command keeps -/

/-- What a command keeps of the Timer Table, of the requests in flight and of the creation claim under way, given `L`. -/
structure State.Keeps (L : Prop) (s t : State) : Prop where
  table : TimerTable.Step L s.table t.table
  dma : L → s.DmaKept t
  creation : L → s.CreationKept t

theorem TimerTable.Step.rest {a b c : TimerTable} (h : TimerTable.Step L a b) (hr : c.rows = b.rows) (hf : c.freeList = b.freeList) :
    TimerTable.Step L a c := by
  rcases h with h | h
  · exact .inl (h.tail (.rest hr hf))
  · cases h with
    | allocate k rest e hk hm hl hr' hf' => exact .inr (.allocate k rest e hk hm hl (hr.trans hr') (hf.trans hf'))
    | unfree k m p hm hl hr' hf' => exact .inr (.unfree k m p hm hl (hr.trans hr') (hf.trans hf'))

theorem TimerTable.Step.after_rest {a b c : TimerTable} (hr : b.rows = a.rows) (hf : b.freeList = a.freeList) (h : TimerTable.Step L b c) :
    TimerTable.Step L a c := by
  rcases h with h | h
  · exact .inl (h.head (.rest hr hf))
  · cases h with
    | allocate k rest e hk hm hl hr' hf' =>
      rw [hr] at hm hr'
      exact .inr (.allocate k rest e (hf ▸ hk) hm hl hr' hf')
    | unfree k m p hm hl hr' hf' =>
      rw [hr] at hm hr'
      exact .inr (.unfree k m p hm hl hr' (hf ▸ hf'))

theorem State.Keeps.of_changes (h : s.Changes L t) (hd : L → s.DmaKept t) (hc : t.transfer.job = s.transfer.job) : s.Keeps L t :=
  ⟨h.step, hd, fun _ => .of_eq hc⟩

/-- An operation that changes no row, issues no request and leaves the job record. -/
theorem State.Keeps.of_frame (ht : t.table = s.table) (hd : t.host.dma = s.host.dma) (hj : t.transfer = s.transfer) : s.Keeps L t :=
  .of_changes (.of_eq ht) (fun _ => .of_eq hd) (by rw [hj])

/-- An operation that changes no row. -/
theorem State.Keeps.of_dma (ht : t.table = s.table) (hd : s.DmaKept t) (hj : t.transfer = s.transfer) : s.Keeps L t :=
  .of_changes (.of_eq ht) (fun _ => hd) (by rw [hj])

theorem State.Keeps.refl (s : State) : s.Keeps L s := .of_frame rfl rfl rfl

/-- An operation that changes no row comes after a command's own change. -/
theorem State.Keeps.trans_rest (h : s.Keeps L t) (hr : u.table.rows = t.table.rows) (hf : u.table.freeList = t.table.freeList)
    (hd : t.DmaKept u) (hc : t.CreationKept u) : s.Keeps L u :=
  ⟨h.table.rest hr hf, fun hL => (h.dma hL).trans hd, fun hL => (h.creation hL).trans hc⟩

/-- An operation that changes no row comes before a command's own change. -/
theorem State.Keeps.after_rest (hr : t.table.rows = s.table.rows) (hf : t.table.freeList = s.table.freeList) (hd : s.DmaKept t)
    (hc : s.CreationKept t) (h : t.Keeps L u) : s.Keeps L u :=
  ⟨h.table.after_rest hr hf, fun hL => hd.trans (h.dma hL), fun hL => hc.trans (h.creation hL)⟩

theorem State.Keeps.answer (h : s.Keeps L t) (k : Ticket) (r : Reply) : s.Keeps L (t.answer k r) :=
  h.trans_rest (by simp) (by simp) (t.dmaKept_answer k r) (.of_eq (by simp))

theorem State.Keeps.endCommand (h : s.Keeps L t) (k : Ticket) : s.Keeps L (t.endCommand k) :=
  h.trans_rest (by simp) (by simp) (t.dmaKept_endCommand k) (.of_eq (by simp))

theorem State.Keeps.reply (h : s.Keeps L t) (k : Ticket) (r : Reply) : s.Keeps L (t.reply k r) :=
  h.trans_rest (by simp) (by simp) (t.dmaKept_reply k r) (.of_eq (by simp))

theorem State.Keeps.endJob (h : s.Keeps L t) (j : Job) (st : Status) (n : Nat) (w : DWord) : s.Keeps L (t.endJob j st n w) :=
  h.trans_rest (by simp) (by simp) (t.dmaKept_endJob j st n w) (.of_none (by simp))

theorem State.keeps_takeRecord (s : State) : s.Keeps L s.takeRecord := .of_frame (by simp) (by simp) (by simp)

theorem State.keeps_failJob (h : t.table = s.table) (hd : s.DmaKept t) (j : Job) (st : Status) : s.Keeps L (t.failJob j st) :=
  ⟨((State.Changes.of_eq h).trans (t.changes_failJob j st)).step, fun _ => hd.trans (t.dmaKept_failJob j st), fun _ => .of_none (by simp)⟩

/-- The take changes nothing of what is kept. -/
theorem State.Keeps.of_takeRecord (h : s.takeRecord.Keeps L t) : s.Keeps L t :=
  .after_rest (by simp) (by simp) (.of_eq (by simp)) (.of_eq (by simp)) h

/-- R106, R108: a command in hand keeps what its body keeps. -/
theorem keeps_runCommand {k : CommandKind} {fieldsBad : CommandBits → Nat → Bool} {body : Taken → State → State}
    (hbody : ∀ w, s.inHand = some w → fieldsBad w.record w.takenAt = false → s.takeRecord.Keeps L (body w s.takeRecord)) :
    s.Keeps L (runCommand k fieldsBad body s) :=
  runCommand_ind (Q := s.Keeps L) (.refl s) (fun _ _ _ => s.keeps_takeRecord.answer _ _) fun w hw _ _ hf => (hbody w hw hf).of_takeRecord

/-- R108: a command that passes its checks keeps what its effect keeps. -/
theorem keeps_checked {k : CommandKind} {w : Taken} {checks : List (Bool × Status)} {effect : State → State × Reply}
    (heffect : (∀ p ∈ checks, p.1 = false) → s.Keeps L (effect s).1) : s.Keeps L (checked k w checks effect s) :=
  checked_ind (Q := s.Keeps L) (fun p => (State.Keeps.refl s).answer _ p) fun hc => (heffect hc).answer _ _

theorem keeps_checkedJob {k : CommandKind} {w : Taken} {checks : List (Bool × Status)} {start : State → State}
    (hstart : s.Keeps L (start s)) : s.Keeps L (checkedJob k w checks start s) :=
  checkedJob_ind (Q := s.Keeps L) (fun p => (State.Keeps.refl s).answer _ p) fun _ => hstart.endCommand _

end Sys2Proof.Machine
end

section
/-! What each command keeps, command by command, and from it: the Timer Table stays legal, and entries in use keep their identity. -/

namespace Sys2Proof.Machine

variable {L : Prop} {s t : State}

/-! ### Timer commands -/

/-- R19: what a handle matches is the entry of its slot, whose generation it names. -/
theorem State.matchHandle_eq_some {h : Word} {e : Entry} : s.matchHandle h = some e ↔
    s.entryAt (handleSlot h) = some e ∧ s.generationAt (handleSlot h) = handleGeneration h := by
  unfold State.matchHandle
  split <;> simp_all

/-- R19: a handle matches nothing when its slot is FREE or has another generation. -/
theorem State.matchHandle_eq_none {h : Word} : s.matchHandle h = none ↔
    s.entryAt (handleSlot h) = none ∨ s.generationAt (handleSlot h) ≠ handleGeneration h := by
  unfold State.matchHandle
  split <;> simp_all

/-- R113: a ring number that is not refused is one of CR1 to CR7. -/
theorem ne_zero_of_badIoRing {n : Nat} (h : badIoRing n = false) : (Fin.ofNat 8 n : Fin 8) ≠ 0 := by
  simp only [badIoRing, Bool.or_eq_false_iff, decide_eq_false_iff_not] at h
  intro h0
  have := congrArg Fin.val h0
  simp at this
  omega

/-- R4, R113: optional fields that fit their kind as a command or an image gives them, 0 for absent. -/
theorem fits_of_misfit {e : Entry} {period limit : Nat} (h : misfit e.kind period limit e.faultOption = false)
    (hp : e.period = if period = 0 then none else some period) (hl : e.fireLimit = if limit = 0 then none else some limit) :
    e.fits = true := by
  unfold Entry.fits
  unfold misfit at h
  cases hk : e.kind <;> simp_all

/-- R2: the ranges of an entry that has no pending expiry, its period and fire limit given with 0 for absent. -/
theorem ranged_of_fields {e : Entry} {period limit : Nat} (hring : e.ring ≠ 0) (hdeadline : e.deadline ≤ Config.maxTick)
    (htotal : e.totalFires ≤ Config.maxCount32) (hpending : e.pendingExpiry = none) (hperiod : period < 2 ^ 32) (hlimit : limit < 2 ^ 16)
    (hp : e.period = if period = 0 then none else some period) (hl : e.fireLimit = if limit = 0 then none else some limit) :
    e.ranged = true := by
  have hp' : e.period.all (fun p => decide (1 ≤ p) && decide (p < 2 ^ 32)) = true := by
    rw [hp]; split
    · simp
    · simp; omega
  have hl' : e.fireLimit.all (fun n => decide (1 ≤ n) && decide (n < 2 ^ 16)) = true := by
    rw [hl]; split
    · simp
    · simp; omega
  simp only [Entry.ranged, hp', hl']
  simp [hring, hdeadline, htotal, hpending]

/-- R113: the entry that an ARM makes is in range and fits its kind, when its record passes the field checks. -/
theorem armEntry_fields {r : CommandBits} {now : Nat} (h : armFieldsBad r now = false) :
    (armEntry r now).ranged = true ∧ (armEntry r now).fits = true := by
  simp only [armFieldsBad, badTime, Bool.or_eq_false_iff, decide_eq_false_iff_not, not_lt] at h
  obtain ⟨⟨⟨-, -, hdeadline⟩, hring⟩, hkind⟩ := h
  cases hk : TimerKind.ofCode (recTimerKind r).toNat with
  | none => simp [hk] at hkind
  | some k =>
    simp only [hk] at hkind
    exact ⟨ranged_of_fields (ne_zero_of_badIoRing hring) hdeadline (Nat.zero_le _) rfl (fieldAt r 32 4).isLt
      (fieldAt r 36 2).isLt rfl rfl, fits_of_misfit (by simpa [armEntry, hk] using hkind) rfl rfl⟩

/-- R13: a free list with more unmarked slots than are reserved is not empty. -/
theorem State.freeList_of_unmarkedFree (h : s.table.reservation < s.unmarkedFree) : ∃ k rest, s.table.freeList = k :: rest := by
  cases hl : s.table.freeList with
  | nil => simp [State.unmarkedFree, hl] at h
  | cons k rest => exact ⟨k, rest, rfl⟩

/-- R13: the head of the free list, when it is unmarked. -/
theorem State.markAt_head {k : Nat} {rest : List Nat} (hl : s.table.freeList = k :: rest) (h : s.headMarked = false) : s.markAt k = none := by
  simpa [State.headMarked, hl] using h

/-- R114: the Timer Table after the allocation of an ARM. -/
theorem armEffect_table (r : CommandBits) (now : Nat) (s : State) : ((armEffect r now s).1.table.rows = storeRow s.table.rows
    (s.table.freeList.headD 0) { s.rowAt (s.table.freeList.headD 0) with entry := some ((armEntry r now).placedAt s.wheel.time) }) ∧
      (armEffect r now s).1.table.freeList = s.table.freeList.tail := by
  refine ⟨(State.place_rows _ _ _).trans ?_, by simp [armEffect]⟩
  simp [State.rowAt]

theorem keeps_armClaim (w : Taken) (hm : s.headMarked = false) (hL : L → armFieldsBad w.record w.takenAt = false) :
    s.Keeps L (armClaim w s) := by
  refine keeps_checked fun hc => ?_
  have hfree : s.table.reservation < s.unmarkedFree := by simpa using hc (decide (s.unmarkedFree ≤ s.table.reservation), .noEntries) (by simp [armChecks])
  obtain ⟨k, rest, hk⟩ := State.freeList_of_unmarkedFree hfree
  obtain ⟨hrows, hlist⟩ := armEffect_table w.record w.takenAt s
  refine ⟨.inr (.allocate k rest _ hk (s.markAt_head hk hm) (fun h => ?_) (by rw [hrows, hk]; rfl) (by rw [hlist, hk]; rfl)),
    fun _ => .of_eq (by simp [armEffect]), fun _ => .of_eq (by simp [armEffect])⟩
  exact Entry.placedAt_legal (armEntry_fields (hL h)).1 (armEntry_fields (hL h)).2 _

theorem keeps_arm (s : State) : s.Keeps L (runCommand .arm armFieldsBad armBody s) := by
  refine keeps_runCommand fun w _ hf => ?_
  unfold armBody
  split
  · exact .of_changes (.of_same rfl rfl) (fun _ => .of_eq rfl) rfl
  · rename_i h
    simp only [not_or, Bool.not_eq_true] at h
    exact keeps_armClaim w h.1 fun _ => hf

theorem keeps_allocation (s : State) : ∀ {t}, execAllocation s = .next t → s.Keeps s.EntriesLegal t := by
  rintro t ⟨⟩
  split
  · rename_i w hw
    split
    · rename_i ha
      have hm : s.headMarked = false := by simp [State.allocates] at ha; exact ha.1
      have hclaim := keeps_armClaim (L := s.EntriesLegal) (s := { s with
        executor := { s.executor with state := .executing w }, table := { s.table with waiting := s.table.waiting.tail } }) w hm
        fun h => h.2.2.2.1 w hw
      exact .after_rest (t := { s with
        executor := { s.executor with state := .executing w }, table := { s.table with waiting := s.table.waiting.tail } })
        rfl rfl (.of_eq rfl) (.of_eq rfl) hclaim
    · exact .refl s
  · exact .refl s
  · exact .refl s

/-- R112, R115: a REARM whose record passes the field checks gives a tick value. -/
theorem rearm_deadline_le {r : CommandBits} {now : Nat} (h : rearmFieldsBad r now = false) : commandDeadline r now ≤ Config.maxTick := by
  simp only [rearmFieldsBad, badTime, Bool.or_eq_false_iff, decide_eq_false_iff_not, not_lt] at h
  exact h.2.2

/-- A legal entry given another deadline, a tick value, and another period, present or as it was, is in range and fits its kind. -/
theorem Entry.redeadline_fields {e : Entry} {d : Nat} {p : Option Nat} (h : e.legal = true) (hd : d ≤ Config.maxTick)
    (hp : p = e.period ∨ e.kind ≠ .oneshot ∧ ∃ n, p = some n ∧ n ≠ 0 ∧ n < 2 ^ 32) :
    ({ e with deadline := d, period := p } : Entry).ranged = true ∧ ({ e with deadline := d, period := p } : Entry).fits = true := by
  obtain ⟨hr, hf, -⟩ := Entry.legal_iff.1 h
  simp only [Entry.ranged, Bool.and_eq_true, decide_eq_true_eq] at hr ⊢
  obtain ⟨⟨⟨⟨⟨h1, -⟩, h2⟩, h3⟩, h4⟩, h5⟩ := hr
  rcases hp with rfl | ⟨hk, n, rfl, h0, hn⟩
  · exact ⟨⟨⟨⟨⟨⟨h1, hd⟩, h2⟩, h3⟩, h4⟩, h5⟩, hf⟩
  · refine ⟨⟨⟨⟨⟨⟨h1, hd⟩, h2⟩, by simp; omega⟩, h4⟩, h5⟩, ?_⟩
    unfold Entry.fits at hf ⊢
    cases hk' : e.kind <;> simp_all

/-- R28, R31, R65: an entry taken from its place and placed again. -/
theorem State.changes_rePlace {k : Nat} {e e' : Entry} (he : s.entryAt k = some e) (hs : e.SameIdentity e')
    (hl : L → e.legal = true → e'.ranged = true ∧ e'.fits = true) : s.Changes L (((s.leavePlace k e).uncountTrip e).place k e') := by
  have hleave : s.Changes L ((s.leavePlace k e).uncountTrip e) := .of_eq (by simp)
  exact hleave.trans (State.changes_place (e := e) (by simpa [State.entryAt, State.rowAt] using he) hs hl)

theorem keeps_rearm (s : State) : s.Keeps L (runCommand .rearm rearmFieldsBad rearmBody s) := by
  refine keeps_runCommand fun w _ hf => ?_
  unfold rearmBody
  split
  · exact (State.Keeps.refl _).answer _ _
  · rename_i e he
    refine keeps_checked fun hc => .of_changes (State.changes_rePlace (State.matchHandle_eq_some.1 he).1 ⟨rfl, rfl, rfl, rfl, rfl⟩ fun _ h => ?_)
      (fun _ => .of_eq (by simp [rearmEffect])) (by simp [rearmEffect])
    refine Entry.redeadline_fields h (rearm_deadline_le hf) ?_
    by_cases hp : recPeriod w.record = 0
    · exact .inl (if_pos hp)
    · have hkind : (recPeriod w.record != 0 && e.kind == .oneshot) = false := 
        hc (recPeriod w.record != 0 && e.kind == .oneshot, .wrongKind) (by simp)
      exact .inr ⟨by simpa [hp] using hkind, _, if_neg hp, hp, (fieldAt w.record 32 4).isLt⟩

theorem keeps_cancel (s : State) : s.Keeps L (runCommand .cancel (fun r _ => handleFieldsBad r) cancelBody s) := by
  refine keeps_runCommand fun w _ _ => ?_
  unfold cancelBody
  split
  · exact (State.Keeps.refl _).answer _ _
  · exact keeps_checked fun _ => .of_changes (State.changes_freeEntry _ _) (fun _ => .of_eq (by simp [cancelEffect])) (by simp [cancelEffect])

theorem keeps_kick (s : State) : s.Keeps L (runCommand .kick (fun r _ => handleFieldsBad r) kickBody s) := by
  refine keeps_runCommand fun w _ _ => ?_
  unfold kickBody
  split
  · exact (State.Keeps.refl _).answer _ _
  · rename_i e he
    refine keeps_checked fun hc => .of_changes (State.changes_rePlace (State.matchHandle_eq_some.1 he).1 ⟨rfl, rfl, rfl, rfl, rfl⟩ fun _ h => ?_)
      (fun _ => .of_eq (by simp [kickEffect])) (by simp [kickEffect])
    have hd : decide (Config.maxTick < w.takenAt + e.period.getD 0) = false := 
      hc (decide (Config.maxTick < w.takenAt + e.period.getD 0), .invalidField) (by simp)
    exact Entry.redeadline_fields h (by simpa using hd) (.inl rfl)

theorem keeps_query (s : State) : s.Keeps L (runCommand .query (fun r _ => handleFieldsBad r) queryBody s) := by
  refine keeps_runCommand fun w _ _ => ?_
  unfold queryBody
  split <;> exact (State.Keeps.refl _).answer _ _

theorem keeps_readStatus (s : State) : s.Keeps L (runCommand .readStatus (fun _ _ => false) readStatusBody s) :=
  keeps_runCommand fun _ _ _ => (State.Keeps.refl _).answer _ _

theorem keeps_invalidKind (s : State) : ∀ {t}, execInvalidKind s = .next t → s.Keeps L t := by
  rintro t ⟨⟩
  split
  · exact .refl s
  · split
    · exact s.keeps_takeRecord.answer _ _
    · exact .refl s

/-! ### Ring commands, SET TIMEBASE and domain commands -/

theorem keeps_openSubmissionRing (s : State) :
    s.Keeps L (runCommand .openSubmissionRing (fun r _ => openSubmissionFieldsBad r) openSubmissionBody s) :=
  keeps_runCommand fun _ _ _ => keeps_checked fun _ => .of_frame (by simp) (by simp) (by simp)

theorem keeps_closeSubmissionRing (s : State) :
    s.Keeps L (runCommand .closeSubmissionRing (fun r _ => closeRingFieldsBad r) closeSubmissionBody s) := by
  refine keeps_runCommand fun w _ _ => ?_
  unfold closeSubmissionBody
  dsimp only
  split
  · exact (State.Keeps.refl _).answer _ _
  · split
    · exact State.Keeps.endCommand (.of_frame (by simp) (by simp) (by simp)) _
    · exact State.Keeps.answer (.of_frame (by simp [State.closeSubmission]) (by simp [State.closeSubmission]) (by simp [State.closeSubmission])) _ _

theorem keeps_openCompletionRing (s : State) :
    s.Keeps L (runCommand .openCompletionRing (fun r _ => openCompletionFieldsBad r) openCompletionBody s) :=
  keeps_runCommand fun _ _ _ => keeps_checked fun _ => .of_frame (by simp) (by simp) (by simp)

theorem keeps_closeCompletionRing (s : State) :
    s.Keeps L (runCommand .closeCompletionRing (fun r _ => closeRingFieldsBad r) closeCompletionBody s) :=
  keeps_runCommand fun _ _ _ => keeps_checked fun _ => .of_frame (by simp) (by simp) (by simp)

theorem keeps_restartCompletionRing (s : State) :
    s.Keeps L (runCommand .restartCompletionRing (fun r _ => restartFieldsBad r) restartBody s) := by
  refine keeps_runCommand fun w _ _ => keeps_checked fun _ => ?_
  unfold restartEffect
  dsimp only
  split
  · exact .of_dma (by simp) ((State.DmaKept.of_eq (by simp)).trans (State.dmaKept_writeQueue _ _)) (by simp)
  · exact .of_frame (by simp) (by simp) (by simp)

theorem keeps_setTimebase (s : State) : s.Keeps L (runCommand .setTimebase (fun r _ => setTimebaseFieldsBad r) setTimebaseBody s) :=
  keeps_runCommand fun _ _ _ => keeps_checked fun _ => .of_frame (by simp [setTimebaseEffect]) (by simp [setTimebaseEffect])
    (by simp [setTimebaseEffect])

theorem keeps_createDomain (s : State) : s.Keeps L (runCommand .createDomain (fun r _ => createFieldsBad r) createBody s) :=
  keeps_runCommand fun _ _ _ => keeps_checked fun _ => .of_frame (by simp) (by simp) (by simp)

/-- R18: an operation that removes the marks of a domain and changes its record. -/
theorem State.keeps_removeMarks (s : State) (d : Fin 64) (f : Domain → Domain) : s.Keeps L ((s.removeMarks d).updateDomain d f) :=
  .of_changes ((s.changes_removeMarks d).trans (.of_eq (by simp))) (fun _ => .of_eq (by simp)) (by simp)

theorem keeps_destroyDomain (s : State) : s.Keeps L (runCommand .destroyDomain (fun r _ => domainFieldsBad r) destroyBody s) := by
  refine keeps_runCommand fun w _ _ => ?_
  unfold destroyBody
  dsimp only
  split
  · exact keeps_checkedJob (State.keeps_removeMarks _ _ _)
  · exact keeps_checked fun _ => State.keeps_removeMarks _ _ _

theorem keeps_pauseDomain (s : State) : s.Keeps L (runCommand .pauseDomain (fun r _ => domainFieldsBad r) pauseBody s) := by
  refine keeps_runCommand fun w _ _ => ?_
  unfold pauseBody
  dsimp only
  exact keeps_checked fun _ => .of_frame (by simp) (by simp) (by simp)

theorem keeps_resumeDomain (s : State) : s.Keeps L (runCommand .resumeDomain (fun r _ => domainFieldsBad r) resumeBody s) := by
  refine keeps_runCommand fun w _ _ => keeps_checked fun _ => ?_
  unfold resumeEffect
  dsimp only
  split
  · exact .of_changes ((State.changes_splice _ (s.takeRecord.domain (recDomainFin w.record)).held).trans (.of_eq (by simp)))
      (fun _ => .of_eq (by simp)) (by simp)
  · exact .of_frame (by simp) (by simp) (by simp)

theorem keeps_destroyWalkVisit (d : Fin 64) (s : State) : ∀ {t}, execDestroyWalkVisit d s = .next t → s.Keeps L t := by
  rintro t ⟨⟩
  split
  · exact .refl s
  · rename_i w _
    split
    · split
      · exact .of_changes ((s.changes_freeEntry w.position).trans (.of_eq (by simp))) (fun _ => .of_eq (by simp)) (by simp)
      · exact .of_frame (by simp) (by simp) (by simp)
    · exact .refl s

theorem keeps_destroyWalkEnd (d : Fin 64) (s : State) : ∀ {t}, execDestroyWalkEnd d s = .next t → s.Keeps L t := by
  rintro t ⟨⟩
  split
  · exact .refl s
  · split
    · exact (s.keeps_removeMarks d _).reply _ _
    · exact .refl s

/-! ### The register window and the device states -/

/-- What is kept by an operation that brings no entry into use; such operations may follow one another. -/
structure State.Quiet (L : Prop) (s t : State) : Prop where
  table : s.Changes L t
  dma : s.DmaKept t
  creation : s.CreationKept t

theorem State.Quiet.keeps (h : s.Quiet L t) : s.Keeps L t := ⟨h.table.step, fun _ => h.dma, fun _ => h.creation⟩

theorem State.Quiet.trans {u : State} (h : s.Quiet L t) (h' : t.Quiet L u) : s.Quiet L u :=
  ⟨h.table.trans h'.table, h.dma.trans h'.dma, h.creation.trans h'.creation⟩

theorem State.Quiet.of_frame (ht : t.table = s.table) (hd : t.host.dma = s.host.dma) (hj : t.transfer = s.transfer) : s.Quiet L t :=
  ⟨.of_eq ht, .of_eq hd, .of_eq (by rw [hj])⟩

theorem State.Quiet.refl (s : State) : s.Quiet L s := .of_frame rfl rfl rfl

/-- R193, R194: a disable or a reset, after which the Timer Table, the requests and the job are those of a reset. -/
theorem State.Quiet.of_reset (ht : t.table = .reset) (hd : t.host.dma = []) (hj : t.transfer = .reset) : s.Quiet L t :=
  ⟨.of_move (.reset ht), fun q hq => by simp [hd] at hq, .of_none (by simp [hj, TransferUnit.reset])⟩

theorem State.quiet_writeTail (s : State) (i : Fin 8) (v : Nat) : s.Quiet L (s.writeTail i v) := .of_frame (by simp) (by simp) (by simp)

theorem State.quiet_writeHead (s : State) (c : Fin 8) (v : Nat) : s.Quiet L (s.writeHead c v) := .of_frame (by simp) (by simp) (by simp)

theorem State.quiet_writeEnable1 (s : State) : s.Quiet L s.writeEnable1 := by
  unfold State.writeEnable1
  dsimp only
  split
  · exact .refl s
  · split
    · exact .of_frame (by simp) (by simp) (by simp)
    · exact .of_frame rfl rfl rfl

theorem State.quiet_writeEnable0 (s : State) : s.Quiet L s.writeEnable0 := by
  unfold State.writeEnable0
  dsimp only
  split
  · split <;> exact .of_frame rfl rfl rfl
  · exact .refl s

theorem State.quiet_deviceReset (s : State) : s.Quiet L s.deviceReset := .of_reset (by simp) (by simp) (by simp)

theorem State.quiet_writeRegister (s : State) (offset : Nat) (v : Word) : s.Quiet L (s.writeRegister offset v) := by
  unfold State.writeRegister State.writeControl
  split
  · split
    · exact s.quiet_deviceReset
    · split
      · exact s.quiet_writeEnable1
      · exact s.quiet_writeEnable0
  · split
    · exact s.quiet_writeTail _ _
    · split
      · exact s.quiet_writeHead _ _
      · split <;> exact .of_frame rfl rfl rfl

theorem State.quiet_writeWords (l : List Word) : ∀ (offset : Nat) (s : State), s.Quiet L (State.writeWords offset l s) := by
  induction l with
  | nil => exact fun _ s => .refl s
  | cons v rest ih => exact fun offset s => (s.quiet_writeRegister offset v).trans (ih _ _)

theorem keeps_registerWrite (offset : Nat) (width : AccessWidth) (value : List Word) (s : State) :
    ∀ {t}, execRegisterWrite offset width value s = .next t → s.Keeps L t := by
  rintro t ⟨⟩
  split
  case h_4 => exact (State.quiet_writeWords _ offset s).keeps
  all_goals exact .refl s

theorem keeps_deviceTimeLowRead (s : State) (offset : Nat) (width : AccessWidth) :
    ∀ {t}, execDeviceTimeLowRead s offset width = .next t → s.Keeps L t := by
  rintro t ⟨⟩
  obtain ⟨latch, h⟩ := s.readAccess_spec offset width
  exact .of_frame (by simp [h]) (by simp [h]) (by simp [h])

theorem keeps_disable (s : State) : ∀ {t}, execDisable s = .next t → s.Keeps L t := by
  rintro t ⟨⟩
  split
  · split
    · exact State.Quiet.keeps (.of_reset (by simp [State.resetBlocks]) (by simp [State.resetBlocks]) (by simp [State.resetBlocks]))
    · exact State.Quiet.keeps (.of_reset rfl rfl rfl)
  · exact .refl s

/-! ### Fetching and time -/

theorem State.keeps_takeAhead (s : State) : s.Keeps L s.takeAhead := by
  unfold State.takeAhead
  split
  · exact s.keeps_takeRecord
  · exact .refl s

theorem State.holdArbitration_frame (s : State) : s.holdArbitration.table = s.table ∧ s.holdArbitration.transfer = s.transfer ∧
    s.holdArbitration.executor = s.executor := by
  unfold State.holdArbitration
  split
  · split <;> simp
  · simp

theorem keeps_arbitration (s : State) : ∀ {t}, execArbitration s = .next t → s.Keeps L t := by
  rintro t ⟨⟩
  obtain ⟨ht, hj, -⟩ := s.takeAhead.holdArbitration_frame
  exact s.keeps_takeAhead.trans_rest (by rw [ht]) (by rw [ht]) s.takeAhead.dmaKept_holdArbitration (.of_eq (by rw [hj]))

theorem keeps_recordArrival (record : CommandBits) (s : State) : ∀ {t}, execRecordArrival record s = .next t → s.Keeps L t := by
  rintro t ⟨⟩
  have hend := s.dmaKept_endDma DmaRequest.ofFetcher
  split
  · split
    · exact .of_dma rfl hend rfl
    · exact .of_dma rfl hend rfl
  · exact .refl s

theorem keeps_readBusError (s : State) : ∀ {t}, execReadBusError s = .next t → s.Keeps L t := by
  rintro t ⟨⟩
  have hend : s.DmaKept ((s.endDma DmaRequest.ofFetcher).setPath .idle) := s.dmaKept_endDma DmaRequest.ofFetcher
  split
  · split
    · split
      · exact .of_dma (by simp) (hend.trans (.of_eq (by simp))) (by simp)
      · refine .of_dma (by simp) (hend.trans ?_) (by simp)
        exact (State.DmaKept.of_eq (by simp)).trans (State.dmaKept_finishClosing _ _)
    · exact .of_dma rfl hend rfl
  · exact .refl s

theorem keeps_tickEvent (s : State) : ∀ {t}, execTickEvent s = .next t → s.Keeps L t := by
  rintro t ⟨⟩
  split
  · exact .of_dma (by simp) s.dmaKept_tick (by simp)
  · exact .refl s

theorem State.keeps_goodRunEvent (s : State) (n : Nat) : s.Keeps L (s.goodRunEvent n) := .of_dma (by simp) (s.dmaKept_goodRunEvent n) (by simp)

theorem keeps_refinEdge (elapsed : Nat) (s : State) : ∀ {t}, execRefinEdge elapsed s = .next t → s.Keeps L t := by
  rintro t ⟨⟩
  split
  · split
    · exact s.keeps_goodRunEvent elapsed
    · exact .of_dma (by simp) (s.dmaKept_plainEdge elapsed) (by simp)
  · exact .refl s

theorem keeps_goodRun (elapsed : Nat) (s : State) : ∀ {t}, execGoodRun elapsed s = .next t → s.Keeps L t := by
  rintro t ⟨⟩
  split
  · exact s.keeps_goodRunEvent elapsed
  · exact .refl s

theorem State.dmaKept_raise (s : State) (k : EventKind) (src : EventSource) (cause : ErrorCause) : s.DmaKept (s.raise k src cause) := .of_eq rfl

theorem keeps_loss (s : State) : ∀ {t}, execLoss s = .next t → s.Keeps L t := by
  rintro t ⟨⟩
  split
  · dsimp only
    split
    · refine .of_dma (by simp) (State.DmaKept.trans (State.DmaKept.trans ?_ (State.dmaKept_countEdges _ _)) (State.dmaKept_raise _ _ _ _)) (by simp)
      exact .of_eq rfl
    · exact .of_frame rfl rfl rfl
  · exact .refl s

theorem keeps_edgeEquivalent (s : State) : ∀ {t}, execEdgeEquivalent s = .next t → s.Keeps L t := by
  rintro t ⟨⟩
  split
  · exact .of_dma (by simp) ((State.DmaKept.of_eq rfl).trans (State.dmaKept_countEdge _)) (by simp)
  · exact .refl s

/-! ### The Timing Wheel, expiry and notification -/

theorem keeps_wheelStep (s : State) : ∀ {t}, execWheelStep s = .next t → s.Keeps L t := by
  rintro t ⟨⟩
  split <;> exact .of_frame rfl rfl rfl

theorem State.keeps_replace (s : State) (k : Nat) : s.Keeps L (s.replace k) :=
  .of_changes (s.changes_replace k) (fun _ => .of_eq (by simp)) (by simp)

theorem keeps_overflowSweep (s : State) : ∀ {t}, execOverflowSweep s = .next t → s.Keeps L t := by
  rintro t ⟨⟩
  split
  · split
    · exact .refl s
    · exact s.keeps_replace _
  · exact .refl s

theorem keeps_cascade (s : State) : ∀ {t}, execCascade s = .next t → s.Keeps L t := by
  rintro t ⟨⟩
  split
  · split
    · exact .refl s
    · split
      · exact .refl s
      · exact s.keeps_replace _
  · exact .refl s

theorem keeps_l0Emptying (s : State) : ∀ {t}, execL0Emptying s = .next t → s.Keeps L t := by
  rintro t ⟨⟩
  split
  · split
    · exact .refl s
    · split
      · exact .refl s
      · rename_i e he
        exact .of_changes (State.changes_moveDue he) (fun _ => .of_eq (by simp)) (by simp)
  · exact .refl s

theorem keeps_stepEnd (s : State) : ∀ {t}, execStepEnd s = .next t → s.Keeps L t := by
  rintro t ⟨⟩
  split
  · exact .of_frame (by simp) (by simp) (by simp)
  · exact .refl s

theorem keeps_take (hL : L → s.EntriesLegal) : ∀ {t}, execTake s = .next t → s.Keeps L t := by
  rintro t ⟨⟩
  split
  · split
    · exact .refl s
    · split
      · exact .refl s
      · rename_i e he
        exact .of_changes (State.changes_takeEntry he) (fun h => State.dmaKept_takeEntry he (hL h).1) (by simp)
  · exact .refl s

theorem keeps_drain (c : Fin 8) (hL : L → s.EntriesLegal) : ∀ {t}, execDrain c s = .next t → s.Keeps L t := by
  rintro t ⟨⟩
  split
  · split
    · exact .refl s
    · rename_i k _ _
      have hundefer : s.Changes L (s.updateCr c (·.undefer k)) := .of_eq (by simp)
      refine .of_changes (hundefer.trans (State.changes_takeExpiry _ c k)) (fun h => ?_) (by simp)
      exact (State.DmaKept.of_eq (by simp)).trans (State.dmaKept_takeExpiry (hL h).1)
  · exact .refl s

theorem keeps_eventPost (s : State) : ∀ {t}, execEventPost s = .next t → s.Keeps L t := by
  rintro t ⟨⟩
  split
  · split
    · exact .refl s
    · exact .of_dma (by simp) ((State.DmaKept.of_eq rfl).trans (State.dmaKept_takeForWriting _ _ _ _ (by simp))) (by simp)
  · exact .refl s

theorem State.keeps_sendMessage (s : State) (c : Fin 8) : s.Keeps L (s.sendMessage c) := .of_dma (by simp) (s.dmaKept_sendMessage c) (by simp)

theorem keeps_countTrigger (c : Fin 8) (s : State) : ∀ {t}, execCountTrigger c s = .next t → s.Keeps L t := by
  rintro t ⟨⟩
  split
  · exact s.keeps_sendMessage c
  · exact .refl s

theorem keeps_delayTrigger (c : Fin 8) (s : State) : ∀ {t}, execDelayTrigger c s = .next t → s.Keeps L t := by
  rintro t ⟨⟩
  split
  · exact s.keeps_sendMessage c
  · exact .refl s

theorem keeps_writeDone (s : State) : ∀ {t}, execWriteDone s = .next t → s.Keeps L t := by
  rintro t ⟨⟩
  have hend := s.dmaKept_endDma DmaRequest.ofPoster
  split
  · exact .refl s
  · rename_i q _
    dsimp only
    split
    · refine .of_changes (.trans (.of_eq (t := s.endDma DmaRequest.ofPoster) rfl) (State.changes_writeEnded _ q)) (fun _ => hend.trans ?_) (by simp)
      exact .of_eq (by simp)
    · exact .of_dma rfl hend rfl

/-- R64: an entry that is restored from its mark comes into use; every other case of a restoration rewrites an entry, or none. -/
theorem State.keeps_restoreFires (s : State) (c : Fin 8) (slot n k g : Nat) {p : PendingExpiry} (hp : L → p.legal = true) :
    s.Keeps L (s.restoreFires c slot n k g p) := by
  unfold State.restoreFires
  split
  · rename_i m hm
    split
    · unfold State.restoreMarked
      dsimp only
      split
      · split
        · exact .of_changes (State.changes_clearMark hm) (fun _ => .of_eq (by simp)) (by simp)
        · exact .refl s
      · refine ⟨.inr (.unfree k m (if m.belongsTo c slot n then m.entry.pendingExpiry else some p) hm (fun hl he hph => ?_) rfl rfl),
          fun _ => .of_eq (by simp), fun _ => .of_eq (by simp)⟩
        split
        · exact he
        · obtain ⟨hr, hf, hpl⟩ := Entry.legal_iff.1 he
          refine Entry.legal_of (Entry.ranged_withPending hr (hp hl)) hf ?_
          simp only [Entry.placed, hph, Bool.and_eq_true] at hpl ⊢
          exact ⟨hpl.1, rfl⟩
    · exact .refl s
  · split
    · rename_i e he
      split
      · refine .of_changes ?_ (fun _ => .of_eq (by simp)) (by simp)
        refine .rewrite he (e' := { e with pendingExpiry := some (match e.pendingExpiry with
          | none => p
          | some held => mergeExpiry held p) }) (.refl e) (fun hl h => ?_) rfl rfl
        obtain ⟨hr, hf, hpl⟩ := Entry.legal_iff.1 h
        refine Entry.legal_of (Entry.ranged_withPending hr ?_) hf ?_
        · cases hq : e.pendingExpiry with
          | none => exact hp hl
          | some held => exact mergeExpiry_legal (Entry.pending_legal h hq) (hp hl)
        · unfold Entry.placed at hpl ⊢
          cases hph : e.phase <;> simp_all
      · exact .refl s
    · exact .refl s

theorem keeps_writeFailed (hL : L → s.EntriesLegal) : ∀ {t}, execWriteFailed s = .next t → s.Keeps L t := by
  rintro t ⟨⟩
  have hend := s.dmaKept_endDma DmaRequest.ofPoster
  split
  · exact .refl s
  · rename_i q hq
    dsimp only
    split
    · unfold State.writeFailed
      split
      · rename_i c slot n a data o
        split
        · exact .of_dma (by simp) (hend.trans (.of_eq (by simp))) (by simp)
        · split
          · rename_i k g p
            have hlegal : L → p.legal = true := fun h => (hL h).2.1 _ (List.mem_of_find?_eq_some hq)
            exact .after_rest (by simp) (by simp) (hend.trans (.of_eq (by simp))) (.of_eq (by simp))
              (State.keeps_restoreFires ((s.endDma DmaRequest.ofPoster).ringWriteFailed c) c slot n k g hlegal)
          all_goals exact .of_dma (by simp) (hend.trans (.of_eq (by simp))) (by simp)
      · split <;> exact .of_dma (by simp) (hend.trans (.of_eq (by simp))) (by simp)
      · exact .of_dma rfl hend rfl
    · exact .of_dma rfl hend rfl

/-! ### The Transfer Unit -/

theorem keeps_exportDomain (s : State) : s.Keeps L (runCommand .exportDomain (fun r _ => exportFieldsBad r) exportBody s) :=
  keeps_runCommand fun _ _ _ => keeps_checkedJob
    ⟨(State.Changes.of_eq (by simp)).step, fun _ => State.dmaKept_startJob _ _ _, fun _ => State.creationKept_startJob _ rfl _⟩

theorem keeps_importDomain (s : State) : s.Keeps L (runCommand .importDomain (fun r _ => importFieldsBad r) importBody s) :=
  keeps_runCommand fun _ _ _ => keeps_checkedJob
    ⟨(State.Changes.of_eq (by simp)).step, fun _ => State.dmaKept_startJob _ _ _, fun _ => State.creationKept_startJob _ rfl _⟩

theorem keeps_abortTransfer (s : State) : s.Keeps L (runCommand .abortTransfer (fun _ _ => false) abortBody s) := by
  refine keeps_runCommand fun w _ _ => ?_
  unfold abortBody
  split
  · exact (State.Keeps.refl _).answer _ _
  · split
    · exact (State.keeps_failJob rfl (.refl _) _ _).answer _ _
    · exact .refl _

/-- A change of the job record that leaves its creation claim, with the issue of its next transfer. -/
theorem State.keeps_updateJob_issue (s : State) {f : Job → Job} {q : Job → DmaRequest} (hf : ∀ j, (f j).creation = j.creation)
    (hq : ∀ j, (q j).legal = true) : s.Keeps L ((s.updateJob f).issue q) :=
  ⟨(State.Changes.of_eq (by simp)).step, fun _ => (State.DmaKept.of_eq rfl).trans (State.dmaKept_issue _ hq),
    fun _ => .of_map hf (by simp)⟩

theorem State.keeps_updateJob (s : State) {f : Job → Job} (hf : ∀ j, (f j).creation = j.creation) : s.Keeps L (s.updateJob f) :=
  ⟨(State.Changes.of_eq (by simp)).step, fun _ => .of_eq (by simp), fun _ => .of_map hf (by simp)⟩

theorem State.keeps_orphanEnded (s : State) : s.Keeps L s.orphanEnded := s.keeps_updateJob_issue Job.begun_creation Job.firstTransfer_legal

theorem State.keeps_issue (s : State) {q : Job → DmaRequest} (hq : ∀ j, (q j).legal = true) : s.Keeps L (s.issue q) :=
  .of_dma (by simp) (s.dmaKept_issue hq) (by simp)

theorem keeps_exportVisit (s : State) : ∀ {t}, execExportVisit s = .next t → s.Keeps L t := by
  rintro t ⟨⟩
  split
  · exact .refl s
  · rename_i j _
    split
    · unfold State.visit
      split
      · rename_i e _
        exact (s.keeps_updateJob (by simp)).trans_rest rfl rfl (State.dmaKept_pushDma (q := j.recordWrite e) rfl) (.of_eq rfl)
      · dsimp only
        split
        · exact s.keeps_updateJob_issue (by simp) fun _ => rfl
        · exact s.keeps_updateJob (by simp)
    · exact .refl s

theorem State.keeps_jobWriteDone (s : State) (j : Job) (item : TransferItem) : s.Keeps L (s.jobWriteDone j item) := by
  unfold State.jobWriteDone
  split
  · exact .refl s
  · unfold State.trailerIfLast
    split
    · exact s.keeps_updateJob_issue (by simp) fun _ => rfl
    · exact s.keeps_updateJob (by simp)
  · split
    · exact s.keeps_updateJob (by simp)
    · exact (State.Keeps.refl s).endJob _ _ _ _
  · exact s.keeps_issue Job.nextRead_legal

theorem keeps_transferWriteDone (s : State) : ∀ {t}, execTransferWriteDone s = .next t → s.Keeps L t := by
  rintro t ⟨⟩
  have hend := s.dmaKept_endDma DmaRequest.isTransferWrite
  split
  · dsimp only
    split
    · split
      · split
        · exact .of_dma rfl hend rfl
        · exact .after_rest (t := s.endDma DmaRequest.isTransferWrite) rfl rfl hend (.of_eq rfl) (State.keeps_jobWriteDone _ _ _)
      · exact .after_rest (t := s.endDma DmaRequest.isTransferWrite) rfl rfl hend (.of_eq rfl) (State.keeps_orphanEnded _)
    · exact .of_dma rfl hend rfl
  · exact .refl s

theorem keeps_exportRelease (s : State) : ∀ {t}, execExportRelease s = .next t → s.Keeps L t := by
  rintro t ⟨⟩
  split
  · exact .refl s
  · rename_i j _
    split
    · exact State.Keeps.endJob (.of_changes (s.changes_freeAll _) (fun _ => .of_eq (by simp)) (by simp)) _ _ _ _
    · exact .refl s

theorem State.keeps_waitCreation (s : State) : s.Keeps L s.waitCreation := by
  unfold State.waitCreation
  split
  · exact .refl s
  · exact .of_changes (.of_same rfl rfl) (fun _ => .of_eq rfl) rfl

/-- R183: a well-formed record of pass 2 makes a creation claim; another ends the job. -/
theorem State.keeps_createRecord (s : State) (j : Job) (r : RecordBits) : s.Keeps L (s.createRecord j r) := by
  unfold State.createRecord
  split
  · rename_i hr
    have hclaim : s.Keeps L (s.updateJob (fun j => { j with
        runningSum := j.runningSum + wordSum r, position := j.position + 1, creation := some r })) := by
      refine ⟨(State.Changes.of_eq (by simp)).step, fun _ => .of_eq (by simp), fun _ i r' hi hr' => .inl ?_⟩
      obtain ⟨i, -, rfl⟩ := Option.map_eq_some_iff.1 (State.updateJob_frame _ _ |>.2.2.2.2.2.2.2.2.2.2.2 ▸ hi)
      cases hr'; exact hr
    dsimp only
    split
    · exact hclaim.trans_rest (by simp) (by simp) (.of_eq (by simp)) (.of_eq (by simp))
    · exact hclaim
  · exact State.keeps_failJob rfl (.refl s) _ _

theorem State.keeps_jobReadDone (s : State) (j : Job) (item : TransferItem) (data : RecordBits) : s.Keeps L (s.jobReadDone j item data) := by
  unfold State.jobReadDone
  split
  · unfold State.verifyHeader
    split
    · exact s.keeps_updateJob_issue (by simp) Job.nextRead_legal
    · exact (State.Keeps.refl s).endJob _ _ _ _
  · exact s.keeps_updateJob_issue (fun _ => rfl) Job.nextRead_legal
  · unfold State.verifyTrailer
    split
    · exact (State.Keeps.refl s).endJob _ _ _ _
    · unfold State.reserve
      refine State.Keeps.after_rest ?_ ?_ ?_ ?_ (State.keeps_updateJob_issue _ (by intro; rfl) Job.firstTransfer_legal)
      · rfl
      · rfl
      · exact .of_eq rfl
      · exact .of_eq rfl
  · exact s.keeps_updateJob_issue (by simp) Job.nextRead_legal
  · exact s.keeps_createRecord j data
  · unfold State.createTrailer
    split
    · exact State.Keeps.endJob (.of_changes s.changes_clearImportMarks (fun _ => .of_eq (by simp)) (by simp)) _ _ _ _
    · exact State.keeps_failJob rfl (.refl s) _ _
  · exact .refl s

theorem keeps_transferReadDone (data : RecordBits) (s : State) : ∀ {t}, execTransferReadDone data s = .next t → s.Keeps L t := by
  rintro t ⟨⟩
  have hend := s.dmaKept_endDma DmaRequest.isTransferRead
  split
  · dsimp only
    split
    · split
      · split
        · exact .of_dma rfl hend rfl
        · exact .after_rest (t := s.endDma DmaRequest.isTransferRead) rfl rfl hend (.of_eq rfl) (State.keeps_jobReadDone _ _ _ _)
      · exact .after_rest (t := s.endDma DmaRequest.isTransferRead) rfl rfl hend (.of_eq rfl) (State.keeps_orphanEnded _)
    · exact .of_dma rfl hend rfl
  · exact .refl s

theorem keeps_transferBusError (s : State) : ∀ {t}, execTransferBusError s = .next t → s.Keeps L t := by
  rintro t ⟨⟩
  have hend := s.dmaKept_endDma DmaRequest.ofTransfer
  split
  · exact .refl s
  · dsimp only
    split
    · split
      · split
        · exact .of_dma rfl hend rfl
        · exact State.keeps_failJob (s := s) (t := s.endDma DmaRequest.ofTransfer) rfl hend _ _
      · exact .after_rest (t := s.endDma DmaRequest.ofTransfer) rfl rfl hend (.of_eq rfl) (State.keeps_orphanEnded _)
    · exact .of_dma rfl hend rfl

/-! ### The creation claim of an import -/

/-- R183: the entry that a creation makes of a record, as it is put where its record's phase and its deadline send it. -/
def Entry.putAt (e : Entry) (phaseCode w : Nat) : Entry :=
  if phaseCode = Phase.tripped.code then { e with phase := .tripped }
  else if w < e.deadline then e.placedAt w else { e with phase := .held }

/-- R183: the Timer Table after an imported entry has been put in its place. -/
theorem State.putImported_rows (s : State) (k phaseCode : Nat) (e : Entry) : (s.putImported k phaseCode e).table.rows =
    storeRow s.table.rows k { s.rowAt k with entry := some (e.putAt phaseCode s.wheel.time) } := by
  unfold State.putImported Entry.putAt
  split
  · rw [State.countTrip_frame _ _ |>.2.2.2.1]; rfl
  · split
    · exact s.place_rows k e
    · rfl

/-- R183: the Timer Table after a creation. -/
theorem State.create_table (s : State) (j : Job) (r : RecordBits) : (s.create j r).table.rows = storeRow s.table.rows (s.table.freeList.headD 0)
    { s.rowAt (s.table.freeList.headD 0) with
      entry := some ((importedEntry r j.domain s.timebase.time).putAt (imagePhaseCode r) s.wheel.time) } ∧
      (s.create j r).table.freeList = s.table.freeList.tail := by
  unfold State.create
  dsimp only
  simp only [State.pushDma_frame, State.updateJob_frame]
  refine ⟨(State.putImported_rows _ _ _ _).trans ?_, by simp⟩
  simp [State.rowAt]

/-- R176, R183: the entry made of a well-formed record is legal. -/
theorem importedEntry_legal {r : RecordBits} (h : wellFormedRecord r = true) (d : Fin 64) (now w : Nat) :
    ((importedEntry r d now).putAt (imagePhaseCode r) w).legal = true := by
  unfold wellFormedRecord at h
  cases hk : imageKind r with
  | none => simp [hk] at h
  | some k =>
    simp only [hk, Bool.and_eq_true, Bool.not_eq_true'] at h
    obtain ⟨⟨⟨hphase, -⟩, hring⟩, hfit⟩ := h
    have hr : (importedEntry r d now).ranged = true := by
      refine ranged_of_fields (ne_zero_of_badIoRing hring) (min_le_left _ _) ?_ rfl (imageField r 16 4).isLt (imageField r 4 2).isLt rfl rfl
      have := (imageField r 20 4).isLt
      simp only [importedEntry, Config.maxCount32]
      omega
    have hf : (importedEntry r d now).fits = true := fits_of_misfit (by simpa [importedEntry, hk] using hfit) rfl rfl
    unfold Entry.putAt
    split
    · rename_i ht
      have hguard : k = .guard := by simpa [ht, Phase.code] using hphase
      exact Entry.legal_of hr hf (by simp [Entry.placed, importedEntry, hk, hguard])
    · split
      · exact Entry.placedAt_legal hr hf w
      · exact Entry.legal_of hr hf (by simp [Entry.placed, importedEntry])

theorem keeps_importCreation (hL : L → s.EntriesLegal) : ∀ {t}, execImportCreation s = .next t → s.Keeps L t := by
  rintro t ⟨⟩
  split
  · exact .refl s
  · rename_i j hj
    split
    · exact .refl s
    · rename_i r hr
      split
      · split
        · exact s.keeps_waitCreation
        · rename_i hw
          simp only [State.creationWaits, Bool.or_eq_true, not_or, Bool.not_eq_true] at hw
          obtain ⟨⟨hempty, hm⟩, -⟩ := hw
          obtain ⟨k, rest, hk⟩ := List.exists_cons_of_ne_nil (l := s.table.freeList) (by simpa using hempty)
          obtain ⟨hrows, hlist⟩ := s.create_table j r
          refine ⟨.inr (.allocate k rest _ hk (s.markAt_head hk hm) (fun h => importedEntry_legal ((hL h).2.2.1 j r hj hr) _ _ _)
            (by rw [hrows, hk]; rfl) (by rw [hlist, hk]; rfl)), fun _ => ?_, fun _ => ?_⟩
          · exact .push (q := j.handleWrite (handleOf (s.table.freeList.headD 0) (s.generationAt (s.table.freeList.headD 0)))) rfl
              (by simp [State.create])
          · intro i r' hi hr'
            simp only [State.create, State.pushDma_frame, State.updateJob_frame] at hi
            obtain ⟨i', -, rfl⟩ := Option.map_eq_some_iff.1 hi
            simp [Job.created] at hr'
      · exact .refl s

/-! ### Every command -/

/-- What a command can do to the Timer Table, to the requests in flight and to the creation claim under way. -/
theorem exec_keeps (c : Instr) (h : exec c s = .next t) : s.Keeps s.EntriesLegal t := by
  cases c with
  | arm => cases h; exact keeps_arm s
  | rearm => cases h; exact keeps_rearm s
  | cancel => cases h; exact keeps_cancel s
  | kick => cases h; exact keeps_kick s
  | query => cases h; exact keeps_query s
  | readStatus => cases h; exact keeps_readStatus s
  | openSubmissionRing => cases h; exact keeps_openSubmissionRing s
  | closeSubmissionRing => cases h; exact keeps_closeSubmissionRing s
  | openCompletionRing => cases h; exact keeps_openCompletionRing s
  | closeCompletionRing => cases h; exact keeps_closeCompletionRing s
  | restartCompletionRing => cases h; exact keeps_restartCompletionRing s
  | setTimebase => cases h; exact keeps_setTimebase s
  | createDomain => cases h; exact keeps_createDomain s
  | destroyDomain => cases h; exact keeps_destroyDomain s
  | pauseDomain => cases h; exact keeps_pauseDomain s
  | resumeDomain => cases h; exact keeps_resumeDomain s
  | exportDomain => cases h; exact keeps_exportDomain s
  | importDomain => cases h; exact keeps_importDomain s
  | abortTransfer => cases h; exact keeps_abortTransfer s
  | invalidKind => exact keeps_invalidKind s h
  | allocation => exact keeps_allocation s h
  | srTailWrite ring value => cases h; exact (s.quiet_writeTail ring _).keeps
  | crHeadWrite ring value => cases h; exact (s.quiet_writeHead ring _).keeps
  | enableSet => cases h; exact s.quiet_writeEnable1.keeps
  | enableClear => cases h; exact s.quiet_writeEnable0.keeps
  | deviceReset => cases h; exact s.quiet_deviceReset.keeps
  | powerOnReset => cases h; exact (State.Quiet.of_reset rfl rfl rfl).keeps
  | deviceTimeLowRead offset width => exact keeps_deviceTimeLowRead s offset width h
  | registerWrite offset width value => exact keeps_registerWrite offset width value s h
  | disable => exact keeps_disable s h
  | arbitration => exact keeps_arbitration s h
  | recordArrival record => exact keeps_recordArrival record s h
  | readBusError => exact keeps_readBusError s h
  | tickEvent => exact keeps_tickEvent s h
  | refinEdge elapsed => exact keeps_refinEdge elapsed s h
  | loss => exact keeps_loss s h
  | goodRun elapsed => exact keeps_goodRun elapsed s h
  | edgeEquivalent => exact keeps_edgeEquivalent s h
  | wheelStep => exact keeps_wheelStep s h
  | overflowSweep => exact keeps_overflowSweep s h
  | cascade => exact keeps_cascade s h
  | l0Emptying => exact keeps_l0Emptying s h
  | stepEnd => exact keeps_stepEnd s h
  | take => exact keeps_take id h
  | drain ring => exact keeps_drain ring id h
  | eventPost => exact keeps_eventPost s h
  | countTrigger ring => exact keeps_countTrigger ring s h
  | delayTrigger ring => exact keeps_delayTrigger ring s h
  | writeDone => exact keeps_writeDone s h
  | writeFailed => exact keeps_writeFailed id h
  | destroyWalkVisit domain => exact keeps_destroyWalkVisit domain s h
  | destroyWalkEnd domain => exact keeps_destroyWalkEnd domain s h
  | exportVisit => exact keeps_exportVisit s h
  | transferWriteDone => exact keeps_transferWriteDone s h
  | exportRelease => exact keeps_exportRelease s h
  | transferReadDone data => exact keeps_transferReadDone data s h
  | importCreation => exact keeps_importCreation id h
  | transferBusError => exact keeps_transferBusError s h

end Sys2Proof.Machine
end

section
/-! The executor between steps, and the statements about every step: the Timer Table and its entries. -/

namespace Sys2Proof.Machine

variable {s t : State}

/-! ### The executor between steps -/

/-- An ARM that waits has passed its field checks, and no command whose take and claim are one step is EXECUTING: the last two clauses of
`State.EntriesLegal`. -/
def ExecutorState.Legal (x : ExecutorState) : Prop :=
  (∀ w, x = .waiting w → armFieldsBad w.record w.takenAt = false) ∧ ∀ w, x = .executing w → (kindOf w.record).any (·.atOnce) = false

theorem State.entriesLegal_iff (s : State) : s.EntriesLegal ↔ s.table.RowsLegal ∧ (∀ q ∈ s.host.dma, q.legal = true) ∧
    (∀ j r, s.transfer.job = some j → j.creation = some r → wellFormedRecord r = true) ∧ s.executor.state.Legal := Iff.rfl

theorem ExecutorState.legal_idle : ExecutorState.idle.Legal := ⟨by simp, by simp⟩

@[simp] theorem State.handHeld_executor_state (s : State) : s.handHeld.executor.state = s.executor.state := by
  unfold State.handHeld; split <;> simp

@[simp] theorem State.finishClosing_executor_state (s : State) (i : Fin 8) : (s.finishClosing i).executor.state = s.executor.state := by
  unfold State.finishClosing; split <;> simp

/-- R106: a command that ends leaves the executor IDLE. -/
@[simp] theorem State.endCommand_executor_state (s : State) (k : Ticket) : (s.endCommand k).executor.state = .idle := by
  simp [State.endCommand]

@[simp] theorem State.answer_executor_state (s : State) (k : Ticket) (r : Reply) : (s.answer k r).executor.state = .idle := by
  simp [State.answer]

/-- A command kind whose body ends the command, leaves the executor EXECUTING a command of a kind that may be, or makes an ARM wait. -/
theorem legal_runCommand {k : CommandKind} {fieldsBad : CommandBits → Nat → Bool} {body : Taken → State → State}
    (hs : s.executor.state.Legal) (hbody : ∀ w, s.inHand = some w → kindOf w.record = some k → fieldsBad w.record w.takenAt = false →
      (body w s.takeRecord).executor.state.Legal) : (runCommand k fieldsBad body s).executor.state.Legal :=
  runCommand_ind (Q := fun t => t.executor.state.Legal) hs (fun w r _ => by simpa using ExecutorState.legal_idle)
    fun w hw hk _ hf => hbody w hw hk hf

theorem checked_executor_state (k : CommandKind) (w : Taken) (checks : List (Bool × Status)) (effect : State → State × Reply) (s : State) :
    (checked k w checks effect s).executor.state = .idle :=
  checked_ind (Q := fun t => t.executor.state = .idle) (by simp) (by simp)

theorem checkedJob_executor_state (k : CommandKind) (w : Taken) (checks : List (Bool × Status)) (start : State → State) (s : State) :
    (checkedJob k w checks start s).executor.state = .idle :=
  checkedJob_ind (Q := fun t => t.executor.state = .idle) (by simp) (by simp)

theorem ExecutorState.Legal.of_idle {x : ExecutorState} (h : x = .idle) : x.Legal := h ▸ ExecutorState.legal_idle

/-- The command kinds whose body always ends the command. -/
theorem legal_runCommand_of_ends {k : CommandKind} {fieldsBad : CommandBits → Nat → Bool} {body : Taken → State → State}
    (hs : s.executor.state.Legal) (hbody : ∀ w t, (body w t).executor.state = .idle) :
    (runCommand k fieldsBad body s).executor.state.Legal := legal_runCommand hs fun _ _ _ _ => .of_idle (hbody _ _)

theorem rearmBody_ends (w : Taken) (t : State) : (rearmBody w t).executor.state = .idle := by
  unfold rearmBody; split
  · simp
  · exact checked_executor_state _ _ _ _ _

theorem cancelBody_ends (w : Taken) (t : State) : (cancelBody w t).executor.state = .idle := by
  unfold cancelBody; split
  · simp
  · exact checked_executor_state _ _ _ _ _

theorem kickBody_ends (w : Taken) (t : State) : (kickBody w t).executor.state = .idle := by
  unfold kickBody; split
  · simp
  · exact checked_executor_state _ _ _ _ _

theorem queryBody_ends (w : Taken) (t : State) : (queryBody w t).executor.state = .idle := by
  unfold queryBody; split <;> simp

theorem closeSubmissionBody_ends (w : Taken) (t : State) : (closeSubmissionBody w t).executor.state = .idle := by
  unfold closeSubmissionBody; dsimp only; split
  · simp
  · split <;> simp

theorem destroyBody_ends (w : Taken) (t : State) : (destroyBody w t).executor.state = .idle := by
  unfold destroyBody; dsimp only; split
  · exact checkedJob_executor_state _ _ _ _ _
  · exact checked_executor_state _ _ _ _ _

theorem pauseBody_ends (w : Taken) (t : State) : (pauseBody w t).executor.state = .idle := by
  unfold pauseBody; exact checked_executor_state _ _ _ _ _

theorem legal_arm (hs : s.executor.state.Legal) : (runCommand .arm armFieldsBad armBody s).executor.state.Legal := by
  refine legal_runCommand hs fun w _ _ hf => ?_
  unfold armBody
  split
  · exact ⟨by rintro _ ⟨⟩; exact hf, by simp⟩
  · exact .of_idle (checked_executor_state _ _ _ _ _)

/-- R132: an ABORT TRANSFER that ends no job stays EXECUTING. -/
theorem legal_abortTransfer (hs : s.executor.state.Legal) :
    (runCommand .abortTransfer (fun _ _ => false) abortBody s).executor.state.Legal := by
  refine legal_runCommand hs fun w hw hk _ => ?_
  unfold abortBody
  split
  · exact .of_idle (by simp)
  · split
    · exact .of_idle (by simp)
    · rw [State.takeRecord_executing hw]
      exact ⟨by simp, by rintro _ ⟨⟩; rw [hk]; rfl⟩

theorem legal_allocation (hs : s.executor.state.Legal) : ∀ {t}, execAllocation s = .next t → t.executor.state.Legal := by
  rintro t ⟨⟩
  split
  · split
    · exact .of_idle (checked_executor_state _ _ _ _ _)
    · exact hs
  · exact hs
  · exact hs

theorem legal_invalidKind (hs : s.executor.state.Legal) : ∀ {t}, execInvalidKind s = .next t → t.executor.state.Legal := by
  rintro t ⟨⟩
  split
  · exact hs
  · split
    · exact .of_idle (by simp)
    · exact hs

/-- Log 6: an ARBITRATION takes no record whose take and claim are one step. -/
theorem legal_arbitration (hs : s.executor.state.Legal) : ∀ {t}, execArbitration s = .next t → t.executor.state.Legal := by
  rintro t ⟨⟩
  rw [(State.holdArbitration_frame _).2.2]
  rcases s.takeAhead_spec with ⟨h, hk⟩ | ⟨h, -⟩
  · rw [h]
    cases hd : s.takeable with
    | none => rwa [State.takeRecord_of_not_takeable hd]
    | some d =>
      rw [State.takeRecord_of_takeable hd]
      exact ⟨by simp, by rintro _ ⟨⟩; exact hk d hd⟩
  · rwa [h]

theorem State.writeRegister_executor (s : State) (offset : Nat) (v : Word) :
    (s.writeRegister offset v).executor = s.executor ∨ (s.writeRegister offset v).executor = .reset := by
  unfold State.writeRegister State.writeControl State.writeEnable1 State.writeEnable0
  repeat' split
  all_goals simp

theorem legal_writeWords (l : List Word) : ∀ (offset : Nat) (s : State), s.executor.state.Legal →
    (State.writeWords offset l s).executor.state.Legal := by
  induction l with
  | nil => exact fun _ s h => h
  | cons v rest ih =>
    refine fun offset s h => ih _ _ ?_
    rcases s.writeRegister_executor offset v with hx | hx <;> rw [hx]
    · exact h
    · exact ExecutorState.legal_idle

theorem legal_registerWrite (offset : Nat) (width : AccessWidth) (value : List Word) (hs : s.executor.state.Legal) :
    ∀ {t}, execRegisterWrite offset width value s = .next t → t.executor.state.Legal := by
  rintro t ⟨⟩
  split
  case h_4 => exact legal_writeWords _ offset s hs
  all_goals exact hs

theorem legal_disable (hs : s.executor.state.Legal) : ∀ {t}, execDisable s = .next t → t.executor.state.Legal := by
  rintro t ⟨⟩
  split
  · split
    · exact .of_idle (by simp [State.resetBlocks, Executor.reset])
    · exact ExecutorState.legal_idle
  · exact hs

/-- Every command leaves an executor that is legal between steps. -/
theorem exec_executor_legal (c : Instr) (h : exec c s = .next t) (hs : s.executor.state.Legal) : t.executor.state.Legal := by
  have same : t.executor.state = s.executor.state → t.executor.state.Legal := fun h => h ▸ hs
  cases c with
  | arm => cases h; exact legal_arm hs
  | rearm => cases h; exact legal_runCommand_of_ends hs rearmBody_ends
  | cancel => cases h; exact legal_runCommand_of_ends hs cancelBody_ends
  | kick => cases h; exact legal_runCommand_of_ends hs kickBody_ends
  | query => cases h; exact legal_runCommand_of_ends hs queryBody_ends
  | readStatus => cases h; exact legal_runCommand_of_ends hs fun _ _ => by simp [readStatusBody]
  | openSubmissionRing => cases h; exact legal_runCommand_of_ends hs fun _ _ => checked_executor_state _ _ _ _ _
  | closeSubmissionRing => cases h; exact legal_runCommand_of_ends hs closeSubmissionBody_ends
  | openCompletionRing => cases h; exact legal_runCommand_of_ends hs fun _ _ => checked_executor_state _ _ _ _ _
  | closeCompletionRing => cases h; exact legal_runCommand_of_ends hs fun _ _ => checked_executor_state _ _ _ _ _
  | restartCompletionRing => cases h; exact legal_runCommand_of_ends hs fun _ _ => checked_executor_state _ _ _ _ _
  | setTimebase => cases h; exact legal_runCommand_of_ends hs fun _ _ => checked_executor_state _ _ _ _ _
  | createDomain => cases h; exact legal_runCommand_of_ends hs fun _ _ => checked_executor_state _ _ _ _ _
  | destroyDomain => cases h; exact legal_runCommand_of_ends hs destroyBody_ends
  | pauseDomain => cases h; exact legal_runCommand_of_ends hs pauseBody_ends
  | resumeDomain => cases h; exact legal_runCommand_of_ends hs fun _ _ => checked_executor_state _ _ _ _ _
  | exportDomain => cases h; exact legal_runCommand_of_ends hs fun _ _ => checkedJob_executor_state _ _ _ _ _
  | importDomain => cases h; exact legal_runCommand_of_ends hs fun _ _ => checkedJob_executor_state _ _ _ _ _
  | abortTransfer => cases h; exact legal_abortTransfer hs
  | invalidKind => exact legal_invalidKind hs h
  | allocation => exact legal_allocation hs h
  | srTailWrite ring value => cases h; exact same (by simp)
  | crHeadWrite ring value => cases h; exact same (by simp)
  | enableSet =>
    cases h; refine same ?_; unfold State.writeEnable1; split
    · rfl
    · dsimp only; split <;> simp
  | enableClear =>
    cases h; refine same ?_; unfold State.writeEnable0; split
    · dsimp only; split <;> rfl
    · rfl
  | deviceReset => cases h; exact ExecutorState.legal_idle
  | powerOnReset => cases h; exact ExecutorState.legal_idle
  | deviceTimeLowRead offset width =>
    cases h
    obtain ⟨latch, hr⟩ := s.readAccess_spec offset width
    exact same (by simp [hr])
  | registerWrite offset width value => exact legal_registerWrite offset width value hs h
  | disable => exact legal_disable hs h
  | arbitration => exact legal_arbitration hs h
  | recordArrival record =>
    cases h; refine same ?_; split
    · split <;> simp
    · rfl
  | readBusError =>
    cases h; refine same ?_; split
    · split
      · split
        · simp
        · simp [State.readFailed]
      · simp
    · rfl
  | tickEvent => cases h; exact same (by split <;> simp)
  | refinEdge elapsed =>
    cases h; refine same ?_; split
    · split <;> simp
    · rfl
  | loss =>
    cases h; refine same ?_; split
    · dsimp only; split <;> simp
    · rfl
  | goodRun elapsed => cases h; exact same (by split <;> simp)
  | edgeEquivalent => cases h; exact same (by split <;> simp)
  | wheelStep => cases h; exact same (by split <;> simp)
  | overflowSweep =>
    cases h; refine same ?_; split
    · split <;> simp
    · rfl
  | cascade =>
    cases h; refine same ?_; split
    · split
      · rfl
      · split <;> simp
    · rfl
  | l0Emptying =>
    cases h; refine same ?_; split
    · split
      · rfl
      · split <;> simp
    · rfl
  | stepEnd => cases h; exact same (by split <;> simp)
  | take =>
    cases h; refine same ?_; split
    · split
      · rfl
      · split <;> simp
    · rfl
  | drain ring =>
    cases h; refine same ?_; split
    · split <;> simp
    · rfl
  | eventPost =>
    cases h; refine same ?_; split
    · split <;> simp
    · rfl
  | countTrigger ring => cases h; exact same (by split <;> simp)
  | delayTrigger ring => cases h; exact same (by split <;> simp)
  | writeDone =>
    cases h; refine same ?_; split
    · rfl
    · dsimp only; split <;> simp
  | writeFailed =>
    cases h; refine same ?_; split
    · rfl
    · dsimp only; split <;> simp
  | destroyWalkVisit domain =>
    cases h; refine same ?_; split
    · rfl
    · split
      · split <;> simp
      · rfl
  | destroyWalkEnd domain =>
    cases h; refine same ?_; split
    · rfl
    · split <;> simp
  | exportVisit =>
    cases h; refine same ?_; split
    · rfl
    · split <;> simp
  | transferWriteDone =>
    cases h; refine same ?_; split
    · dsimp only; split
      · split
        · split <;> simp
        · simp
      · simp
    · rfl
  | exportRelease =>
    cases h; refine same ?_; split
    · rfl
    · split <;> simp
  | transferReadDone data =>
    cases h; refine same ?_; split
    · dsimp only; split
      · split
        · split <;> simp
        · simp
      · simp
    · rfl
  | importCreation =>
    cases h; refine same ?_; split
    · rfl
    · split
      · rfl
      · split
        · split <;> simp
        · rfl
  | transferBusError =>
    cases h; refine same ?_; split
    · rfl
    · dsimp only; split
      · split
        · split <;> simp
        · simp
      · simp

/-! ### The statements -/

/-- What holds of the state that the command at the front of the queue finds, and is kept by every command, every step keeps. -/
theorem step_keeps {Q : State → Prop} (hpending : ∀ (s : State) (l : List Instr), Q s → Q { s with pending := l })
    (hexec : ∀ (c : Instr) (s t : State), Q s → exec c s = .next t → Q t) (hs : Q s) (h : step s = .next t) : Q t := by
  unfold step at h
  split at h
  · cases h; exact hs
  · exact hexec _ _ t (hpending s _ hs) h

/-- Settles O3: every change that a command makes of the Timer Table keeps it legal. -/
theorem tableStaysLegal : Obligations.TableStaysLegal := by
  unfold Obligations.TableStaysLegal
  exact fun s t => step_keeps (fun _ _ h => h) fun c s t hs h => (exec_keeps c h).table.legal hs

/-- Settles O4: with legal entries before, every change of a command writes legal rows and requests, makes claims of well-formed records, and
leaves a legal executor. -/
theorem entriesStayLegal : Obligations.EntriesStayLegal := by
  unfold Obligations.EntriesStayLegal
  refine fun s t => step_keeps (fun _ _ h => h) fun c s t hs h => ?_
  obtain ⟨hrows, hdma, hcreation, hexecutor⟩ := (State.entriesLegal_iff s).1 hs
  have hk := exec_keeps c h
  refine (State.entriesLegal_iff t).2 ⟨hk.table.rowsLegal hs hrows, fun q hq => ?_, fun j r hj hr => ?_, exec_executor_legal c h hexecutor⟩
  · exact (hk.dma hs q hq).elim (hdma q) id
  · exact (hk.creation hs j r hj hr).elim id fun ⟨i, hi, hir⟩ => hcreation i r hi hir

/-- Settles O13: a change of the Timer Table leaves to an entry in use its identity, or frees it. -/
theorem identityFieldsKept : Obligations.IdentityFieldsKept := by
  unfold Obligations.IdentityFieldsKept
  intro c s t k e e' htable hentries h he he' _
  exact (exec_keeps c h).table.identity htable hentries.1 he he'

end Sys2Proof.Machine
end

section
/-! The timer commands (section 6.2): ARM and ALLOCATION, REARM, CANCEL, KICK, QUERY and READ STATUS; and the early refusals. -/

namespace Sys2Proof.Machine

variable {s t : State}

/-! ### What reads the Timer Table only -/

/-- The accessors that read the rows and the free list. -/
theorem State.tableReads_congr (hr : t.table.rows = s.table.rows) (hf : t.table.freeList = s.table.freeList) :
    (∀ k, t.rowAt k = s.rowAt k) ∧ t.entries = s.entries ∧ (∀ d, t.marksNaming d = s.marksNaming d) ∧ t.unmarkedFree = s.unmarkedFree ∧
      t.headMarked = s.headMarked := by
  have hrow : ∀ k, t.rowAt k = s.rowAt k := State.rowAt_congr hr
  exact ⟨hrow, by simp [State.entries, hr], fun d => by simp [State.marksNaming, State.marks, hr],
    by simp [State.unmarkedFree, State.markAt, hrow, hf], by simp [State.headMarked, State.markAt, hrow, hf]⟩

@[simp] theorem State.takeRecord_tableReads (s : State) : (∀ k, s.takeRecord.entryAt k = s.entryAt k) ∧
    (∀ k, s.takeRecord.generationAt k = s.generationAt k) ∧ (∀ h, s.takeRecord.matchHandle h = s.matchHandle h) ∧
    (∀ d, s.takeRecord.marksNaming d = s.marksNaming d) ∧ s.takeRecord.unmarkedFree = s.unmarkedFree ∧
    s.takeRecord.headMarked = s.headMarked := by
  obtain ⟨hrow, -, hmarks, hfree, hhead⟩ := State.tableReads_congr (s := s) (t := s.takeRecord) (by simp) (by simp)
  have hentry : ∀ k, s.takeRecord.entryAt k = s.entryAt k := fun k => congrArg TableRow.entry (hrow k)
  have hgen : ∀ k, s.takeRecord.generationAt k = s.generationAt k := fun k => congrArg TableRow.generation (hrow k)
  exact ⟨hentry, hgen, fun h => by rw [State.matchHandle, hgen, hentry]; rfl, hmarks, hfree, hhead⟩

/-! ### Accepted commands -/

/-- R106, R108: the run of a command that the executor accepts. -/
theorem State.Accepts.run {k : CommandKind} {w : Taken} (h : s.Accepts k w) (body : Taken → State → State) :
    runCommand k k.fieldsBad body s = body w s.takeRecord := runCommand_of_takes h.1 h.2.1 h.2.2

/-- R108: a command that names no handle is refused with its status alone. -/
theorem refusal_of_no_handle {k : CommandKind} (h : k.namesHandle = false) (status : Status) (r : CommandBits) :
    refusal k status r = { status := status } := by
  simp [refusal, h]

/-- R108: a command that names a handle is refused with it. -/
theorem refusal_of_handle {k : CommandKind} (h : k.namesHandle = true) (status : Status) (r : CommandBits) :
    refusal k status r = { status := status, handle := echoHandle (recHandle r) } := by
  simp [refusal, h]

/-! ### ARM and ALLOCATION -/

theorem exec_arm_of_accepts {w : Taken} (h : s.Accepts .arm w) : exec .arm s = .next (armBody w s.takeRecord) :=
  congrArg _ (h.run armBody)

/-- R113: ARM's checks read nothing that a take changes. -/
theorem armChecks_congr (r : CommandBits) (hr : t.table.rows = s.table.rows) (hf : t.table.freeList = s.table.freeList)
    (hv : t.table.reservation = s.table.reservation) (hd : t.domains = s.domains) (hb : t.timebase = s.timebase)
    (hp : t.poster = s.poster) : armChecks r t = armChecks r s := by
  obtain ⟨-, -, hmarks, hfree, -⟩ := State.tableReads_congr hr hf
  simp only [armChecks, State.domain_congr hd, State.cr_congr (congrArg Poster.rings hp), hmarks, hfree, hv, hb]

@[simp] theorem State.allocateHead_accessors (s : State) (c : Fin 8) : (∀ k, (s.allocateHead c).rowAt k = s.rowAt k) ∧
    (∀ d, (s.allocateHead c).domain d = s.domain d) ∧
    ∀ j, (s.allocateHead c).cr j = if j = c then { s.cr c with bound := (s.cr c).bound + 1 } else s.cr j :=
  ⟨fun k => State.rowAt_congr (by simp) k, fun d => State.domain_congr (by simp) d, fun j => State.cr_updateCr _ _ _ _⟩

/-- R13, R15, R28, R114: the effect of an ARM allocates the head of the free list. -/
theorem armEffect_armed {r : CommandBits} {kind : TimerKind} (hkind : TimerKind.ofCode (recTimerKind r).toNat = some kind) (now : Nat)
    {k : Nat} {rest : List Nat} (hk : s.table.freeList = k :: rest) (hm : s.headMarked = false) :
    s.Armed (armEffect r now s).1 r kind now k := by
  have he : armEntry r now = { armEntry r now with kind := kind } := by simp [armEntry, hkind]
  have hmark : (s.rowAt k).mark = none := s.markAt_head hk hm
  have ht : (armEffect r now s).1 = ((s.allocateHead (recPairedFin r)).updateDomain (recDomainFin r)
      (fun d => { d with inUse := d.inUse + 1 })).place k (armEntry r now) := by simp [armEffect, hk, armEntry]
  generalize hv : (s.allocateHead (recPairedFin r)).updateDomain (recDomainFin r) (fun d => { d with inUse := d.inUse + 1 }) = v at ht
  have hrow : ∀ j, v.rowAt j = s.rowAt j := State.rowAt_congr (by simp [← hv])
  have hwheel : v.wheel = s.wheel := by simp [← hv]
  have hdomain : ∀ j, v.domain j = if j = recDomainFin r then { s.domain j with inUse := (s.domain j).inUse + 1 } else s.domain j := by
    intro j; subst hv; by_cases hj : j = recDomainFin r <;> simp [hj]
  have hcr : ∀ j, v.cr j = if j = recPairedFin r then { s.cr j with bound := (s.cr j).bound + 1 } else s.cr j := by
    intro j; subst hv; by_cases hj : j = recPairedFin r <;> simp [hj]
  obtain ⟨hr, hothers, hw⟩ := v.place_spec k (armEntry r now)
  rw [hwheel] at hr hw
  rw [ht]
  refine ⟨?_, fun j hj => (hothers j hj).trans (hrow j), ?_, ?_, hw, ?_, fun j hj => ?_, ?_, fun j hj => ?_, ?_, ?_⟩
  · rw [hr, hrow, he]
    exact congrArg (TableRow.mk (s.rowAt k).generation (some _)) hmark
  · simp [← hv, hk]
  · simp [State.SameReservation, ← hv]
  · rw [State.domain_congr (s := v) (by simp), hdomain, if_pos rfl]
  · rw [State.domain_congr (s := v) (by simp), hdomain, if_neg hj]
  · rw [State.cr_congr (s := v) (by simp), hcr, if_pos rfl]
  · rw [State.cr_congr (s := v) (by simp), hcr, if_neg hj]
  · simp [← hv]
  · simp [State.OnlyTimers, ← hv]

/-- R113, R114: the allocation claim of an ARM, on a state whose free-list head carries no mark. -/
theorem armClaim_spec {w : Taken} {kind : TimerKind} (hkind : TimerKind.ofCode (recTimerKind w.record).toNat = some kind)
    (hm : s.headMarked = false) :
    (∀ status, firstFailure (armChecks w.record s) = some status → armClaim w s = s.answer w.ticket { status := status }) ∧
    (firstFailure (armChecks w.record s) = none → ∃ (k : Nat) (t : State), armClaim w s = t.answer w.ticket
        { status := .success, handle := handleOf k (s.generationAt k), wordA := BitVec.ofNat 64 (commandDeadline w.record w.takenAt)
          flags := flagFaultOption (recFaultOption w.record) } ∧ s.Armed t w.record kind w.takenAt k) := by
  refine ⟨fun status h => ?_, fun h => ?_⟩
  · rw [armClaim, checked_of_some h, refusal_of_no_handle rfl]
  · have hc := firstFailure_eq_none.1 h (decide (s.unmarkedFree ≤ s.table.reservation), .noEntries) (by simp [armChecks])
    obtain ⟨k, rest, hk⟩ := State.freeList_of_unmarkedFree (s := s) (by simpa using hc)
    refine ⟨k, _, ?_, armEffect_armed hkind w.takenAt hk hm⟩
    rw [armClaim, checked_of_none h]
    simp [armEffect, hk, armEntry]

/-- Settles O21: the claim of an ARM that need not wait. -/
theorem armCreatesEntry : Obligations.ArmCreatesEntry := by
  unfold Obligations.ArmCreatesEntry
  intro s w kind h hm hwait hkind
  have hexec : exec .arm s = .next (armClaim w s.takeRecord) := by
    rw [exec_arm_of_accepts h, armBody, if_neg (by simp [hm, hwait])]
  have hchecks : armChecks w.record s.takeRecord = armChecks w.record s :=
    armChecks_congr _ (by simp) (by simp) (by simp) (by simp) (by simp) (by simp)
  obtain ⟨hsome, hnone⟩ := armClaim_spec (s := s.takeRecord) hkind (by simpa using hm)
  rw [hchecks] at hsome hnone
  simp only [State.takeRecord_tableReads] at hnone
  rw [hexec]
  refine ⟨fun status hs => congrArg _ (hsome status hs), fun hn => ?_⟩
  obtain ⟨k, t, ht, harmed⟩ := hnone hn
  exact ⟨k, t, congrArg _ ht, harmed⟩

/-- Settles O22: an ARM that has to wait does, and ALLOCATION takes its claim on the state as it then stands. -/
theorem waitingArmIsAllocated : Obligations.WaitingArmIsAllocated := by
  unfold Obligations.WaitingArmIsAllocated
  refine ⟨fun s w h hwait => ?_, fun s h => ?_, fun s w kind rest hw hm hwait hkind => ?_⟩
  · rw [exec_arm_of_accepts h, armBody, if_pos (by simpa using hwait)]
    simp
  · have hno : ∀ w, s.executor.state = .waiting w → s.allocates = false := by
      intro w hw
      rcases h with h | h | h
      · exact absurd hw (h w)
      · simp [State.allocates, h]
      · simp [State.allocates, h]
    show Host.Outcome.next _ = _
    cases hx : s.executor.state with
    | waiting w => simp [hno w hx]
    | idle => rfl
    | executing w => rfl
  · generalize hs' : ({ s with
      executor := { s.executor with state := .executing w }, table := { s.table with waiting := rest } } : State) = s'
    have hexec : exec .allocation s = .next (armClaim w s') := by
      show Host.Outcome.next _ = _
      rw [hw]
      simp [State.allocates, hm, hwait, ← hs']
    obtain ⟨hrow, -, -, -, hhead⟩ := State.tableReads_congr (s := s) (t := s') (by simp [← hs']) (by simp [← hs'])
    have hchecks : armChecks w.record s' = armChecks w.record s := by
      refine armChecks_congr _ ?_ ?_ ?_ ?_ ?_ ?_ <;> rw [← hs']
    have hgen : ∀ k, s'.generationAt k = s.generationAt k := fun k => congrArg TableRow.generation (hrow k)
    obtain ⟨hsome, hnone⟩ := armClaim_spec (s := s') hkind (hhead.trans hm)
    rw [hchecks] at hsome hnone
    simp only [hgen] at hnone
    rw [hexec]
    refine ⟨fun status hs => congrArg _ (hsome status hs), fun hn => ?_⟩
    obtain ⟨k, t, ht, harmed⟩ := hnone hn
    exact ⟨k, t, congrArg _ ht, harmed⟩

/-! ### REARM, CANCEL and KICK -/

/-- Settles O23: a REARM's answer where its handle matches nothing, and its checks and its placement where it matches an entry. -/
theorem rearmReplacesEntry : Obligations.RearmReplacesEntry := by
  unfold Obligations.RearmReplacesEntry
  intro s w h
  have hexec : exec .rearm s = .next (rearmBody w s.takeRecord) := congrArg _ (h.run rearmBody)
  rw [hexec]
  refine ⟨fun hn => ?_, fun e he hg => ?_⟩
  · rw [rearmBody, State.takeRecord_tableReads s |>.2.2.1, State.matchHandle_eq_none.2 hn, refusal_of_handle rfl]
  · rw [rearmBody, State.takeRecord_tableReads s |>.2.2.1, State.matchHandle_eq_some.2 ⟨he, hg⟩]
    simp only [State.takeRecord_accessors]
    refine ⟨fun status hs => ?_, fun hn => ⟨_, congrArg _ (checked_of_none hn), s.takeRecord.moved_of_place _ e _⟩⟩
    exact congrArg _ ((checked_of_some hs).trans (congrArg _ (refusal_of_handle rfl _ _)))

/-- Settles O24: a CANCEL's answer where its handle matches nothing or a busy domain's entry, and the free where it does not. -/
theorem cancelFreesEntry : Obligations.CancelFreesEntry := by
  unfold Obligations.CancelFreesEntry
  intro s w h
  have hexec : exec .cancel s = .next (cancelBody w s.takeRecord) := congrArg _ (h.run cancelBody)
  rw [hexec]
  refine ⟨fun hn => ?_, fun e he hg => ?_⟩
  · rw [cancelBody, State.takeRecord_tableReads s |>.2.2.1, State.matchHandle_eq_none.2 hn, refusal_of_handle rfl]
  · rw [cancelBody, State.takeRecord_tableReads s |>.2.2.1, State.matchHandle_eq_some.2 ⟨he, hg⟩]
    simp only [State.takeRecord_accessors]
    refine ⟨fun hbusy => ?_, fun hbusy => ⟨_, ?_, State.freeEntry_freed (s := s.takeRecord) (by simpa using he)⟩⟩
    · rw [checked_of_some (status := .domainBusy) (by simp [firstFailure, hbusy]), refusal_of_handle rfl]
    · rw [checked_of_none (by simp [firstFailure, hbusy])]
      cases hp : e.pendingExpiry <;> simp [cancelEffect, hp]

/-- Log 6: in a state with legal entries, a record whose take and claim are one step is taken by that step. -/
theorem State.Takes.atOnce {k : CommandKind} {w : Taken} (h : s.Takes k w) (hk : k.atOnce = true) (hs : s.EntriesLegal) :
    s.takeable.isSome = true ∧ w.takenAt = s.timebase.time := by
  obtain ⟨hhand, hkind⟩ := h
  rcases State.inHand_eq_some.1 hhand with hx | ⟨d, hd, rfl⟩
  · have hno := hs.2.2.2.2 w hx
    simp [hkind, hk] at hno
  · exact ⟨by simp [hd], rfl⟩

/-- R2, R4: the period of a legal guard is at least 1. -/
theorem Entry.guard_period_pos {e : Entry} (h : e.legal = true) (hk : e.kind = .guard) : 1 ≤ e.period.getD 0 := by
  obtain ⟨hr, hf, -⟩ := Entry.legal_iff.1 h
  simp only [Entry.fits, hk, Bool.and_eq_true] at hf
  obtain ⟨p, hp⟩ := Option.isSome_iff_exists.1 hf.1
  simp only [Entry.ranged, Bool.and_eq_true, hp, Option.all_some, decide_eq_true_eq] at hr
  simpa [hp] using hr.1.1.2.1

/-- Settles O25: a KICK's answer where its handle matches nothing, its checks, and its placement, beyond W where entries are legal. -/
theorem kickPostponesGuard : Obligations.KickPostponesGuard := by
  unfold Obligations.KickPostponesGuard
  intro s w h
  have hexec : exec .kick s = .next (kickBody w s.takeRecord) := congrArg _ (h.run kickBody)
  rw [hexec]
  refine ⟨fun hn => ?_, fun e he hg => ?_⟩
  · rw [kickBody, State.takeRecord_tableReads s |>.2.2.1, State.matchHandle_eq_none.2 hn, refusal_of_handle rfl]
  · rw [kickBody, State.takeRecord_tableReads s |>.2.2.1, State.matchHandle_eq_some.2 ⟨he, hg⟩]
    simp only [State.takeRecord_accessors]
    have hmoved := s.takeRecord.moved_of_place (handleSlot (recHandle w.record)) e { e with deadline := w.takenAt + e.period.getD 0 }
    refine ⟨fun status hs => ?_, fun hn => ⟨_, congrArg _ (checked_of_none hn), hmoved, fun hlegal hbehind => ?_⟩⟩
    · exact congrArg _ ((checked_of_some hs).trans (congrArg _ (refusal_of_handle rfl _ _)))
    · have hkind : (e.kind != .guard) = false := firstFailure_eq_none.1 hn (e.kind != .guard, .wrongKind) (by simp)
      have hperiod := Entry.guard_period_pos (TimerTable.RowsLegal.entry hlegal.1 he) (by simpa using hkind)
      have htaken := (h.1.atOnce rfl hlegal).2
      have hlater : s.wheel.time < w.takenAt + e.period.getD 0 := by
        have := hbehind.1
        omega
      refine ⟨hlater, (congrArg (fun r => r.entry.map Entry.phase) hmoved.1).trans ?_⟩
      simp [Entry.placedAt, Nat.not_le.2 hlater]

/-! ### QUERY and READ STATUS -/

/-- Section 11.4: the flags of a QUERY completion, bit by bit and field by field, as one number. -/
theorem queryFlags_eq (e : Entry) : queryFlags e =
    BitVec.ofNat 16 (16 * e.phase.code + 128 * e.kind.code + 8 * e.pendingExpiry.isSome.toNat + 4 * e.faultOption.toNat) := by
  unfold queryFlags
  generalize e.pendingExpiry.isSome = p, e.faultOption = f
  cases e.phase <;> cases e.kind <;> cases p <;> cases f <;> decide

/-- Section 11.4: the flags of a READ STATUS completion as one number. -/
theorem statusFlags_eq (state : TimebaseState) (overrun fault submission completion : Bool) :
    flagTimebase state ||| flagOverrun overrun ||| flagFaultOut fault ||| flagSubmissionError submission ||| flagCompletionError completion =
      BitVec.ofNat 16 (512 * state.code + 4096 * overrun.toNat + 8192 * fault.toNat + 16384 * submission.toNat + 32768 * completion.toNat) := by
  cases state <;> cases overrun <;> cases fault <;> cases submission <;> cases completion <;> decide

/-- Some element of a vector is such, said by its list and by its indices. -/
theorem vector_any_toList {α : Type} {n : Nat} {v : Vector α n} {p : α → Bool} {q : Prop} [Decidable q]
    (h : q ↔ ∃ i : Fin n, p v[i] = true) : v.toList.any p = decide q := by
  rw [Bool.eq_iff_iff, List.any_eq_true, decide_eq_true_iff, h]
  constructor
  · rintro ⟨x, hx, hp⟩
    obtain ⟨i, hi, rfl⟩ := List.mem_iff_getElem.1 hx
    exact ⟨⟨i, by simpa using hi⟩, by simpa using hp⟩
  · rintro ⟨i, hi⟩
    exact ⟨v[i], by simp, hi⟩

/-- R118: what a QUERY reports. -/
theorem queryReply_eq (r : CommandBits) (now : Nat) (e : Entry) : queryReply r now e =
    { status := .success, handle := echoHandle (recHandle r)
      wordA := BitVec.ofNat 64 (if e.phase = .armed ∨ e.phase = .due then e.deadline - now else 0), wordB := e.cookie
      count := BitVec.ofNat 32 e.totalFires
      flags := BitVec.ofNat 16 (16 * e.phase.code + 128 * e.kind.code + 8 * e.pendingExpiry.isSome.toNat + 4 * e.faultOption.toNat) } := by
  rw [queryReply, queryFlags_eq]
  unfold Entry.remaining
  cases e.phase <;> simp

/-- Settles O26: QUERY and READ STATUS answer and do nothing else. -/
theorem queryAndReadStatusReport : Obligations.QueryAndReadStatusReport := by
  unfold Obligations.QueryAndReadStatusReport
  refine ⟨fun s w h => ?_, fun s w h => ?_⟩
  · have hexec : exec .query s = .next (queryBody w s.takeRecord) := congrArg _ (h.run queryBody)
    rw [hexec]
    refine ⟨fun hn => ?_, fun e he hg => ?_⟩
    · rw [queryBody, State.takeRecord_tableReads s |>.2.2.1, State.matchHandle_eq_none.2 hn, refusal_of_handle rfl]
    · rw [queryBody, State.takeRecord_tableReads s |>.2.2.1, State.matchHandle_eq_some.2 ⟨he, hg⟩]
      simp only [queryReply_eq, State.takeRecord_frame]
  · have hexec : exec .readStatus s = .next (readStatusBody w s.takeRecord) := congrArg _ (h.run readStatusBody)
    have hsr : s.fetcher.rings.toList.any (fun r => r.state == .error) = decide (∃ i, (s.sr i).state = .error) :=
      vector_any_toList (by simp [State.sr])
    have hcr : s.poster.rings.toList.any (fun r => r.state == .error) = decide (∃ c, (s.cr c).state = .error) :=
      vector_any_toList (by simp [State.cr])
    rw [hexec, readStatusBody, State.statusReply, statusFlags_eq]
    simp only [State.takeRecord_frame, State.deferredTotal, State.faultOut, hsr, hcr]

/-! ### The take and the early refusals -/

/-- The command of a kind is the run of that kind, with its field checks and a body of its own. -/
theorem exec_command (k : CommandKind) : ∃ body, ∀ s, exec k.command s = .next (runCommand k k.fieldsBad body s) := by
  cases k <;> exact ⟨_, fun _ => rfl⟩

/-- R108: the handle of a refusal. -/
theorem refusal_eq (k : CommandKind) (status : Status) (r : CommandBits) : refusal k status r =
    { status := status, handle := if k = .rearm ∨ k = .cancel ∨ k = .kick ∨ k = .query then echoHandle (recHandle r) else 0#32 } := by
  cases k <;> rfl

/-- Settles O19: the take, the refusals that come before a command's own checks, and the kinds whose take is their own step. -/
theorem earlyRefusals : Obligations.EarlyRefusals := by
  unfold Obligations.EarlyRefusals
  refine ⟨fun s d => ?_, fun s d hd => ?_, fun s hs => ?_, fun s w hw hk => ?_, fun s hs => ?_, fun k s hs => ?_, fun k s w hw => ?_⟩
  · rw [takeable_eq_some]
    simp [State.ready]
  · refine ⟨State.inHand_eq_some.2 (.inr ⟨d, hd, rfl⟩), ?_⟩
    rw [State.takeRecord_of_takeable hd]
    cases s.fetcher.path <;> rfl
  · refine ⟨State.takeRecord_of_not_takeable hs, fun w => ?_⟩
    rw [State.inHand_eq_some]
    simp [hs]
  · show Host.Outcome.next _ = _
    rw [hw]
    simp [hk]
  · show Host.Outcome.next _ = _
    cases hw : s.inHand with
    | none => rfl
    | some w => simp [hs w hw]
  · obtain ⟨body, hbody⟩ := exec_command k
    rw [hbody, runCommand]
    cases hw : s.inHand with
    | none => rfl
    | some w => exact congrArg _ (if_neg fun hk => hs w ⟨hw, hk⟩)
  · obtain ⟨body, hbody⟩ := exec_command k
    have hrun : exec k.command s = .next (if k.adminOnly ∧ w.ticket.source ≠ 0 then
        s.takeRecord.answer w.ticket (refusal k .adminOnly w.record) else if k.fieldsBad w.record w.takenAt then
        s.takeRecord.answer w.ticket (refusal k .invalidField w.record) else body w s.takeRecord) := by
      rw [hbody, runCommand, hw.1]
      simp only [hw.2, if_true]
    refine ⟨fun ha hsource => ?_, fun ha hf => ?_, fun hk hs => hw.atOnce ?_ hs⟩
    · rw [hrun, if_pos ⟨ha, hsource⟩, refusal_eq]
    · rw [hrun, if_neg fun h => h.2 (ha h.1), if_pos hf, refusal_eq]
    · rcases hk with rfl | rfl | rfl | rfl <;> rfl

end Sys2Proof.Machine
end

section
/-! DESTROY DOMAIN, several frees in one claim, and what ends a job, rolls an import back and releases an exported set. -/

namespace Sys2Proof.Machine

variable {s t : State}

/-! ### DESTROY DOMAIN -/

/-- R18: the marks that name a domain go, and its record is changed by `f`; nothing else is. -/
theorem State.removeMarks_updateDomain (h : s.Canonical) (d : Fin 64) (f : Domain → Domain) :
    let t := (s.removeMarks d).updateDomain d f
    t.domain d = f (s.domain d) ∧ s.OnlyDomain t d ∧ s.Unmarked t d ∧ t.table.freeList = s.table.freeList ∧ s.SameReservation t ∧
      t.wheel = s.wheel ∧ t.expiry = s.expiry ∧ t.poster.rings = s.poster.rings ∧ s.OnlyTimers t := by
  have hdomain : ∀ j, (s.removeMarks d).domain j = s.domain j := State.domain_congr (by simp)
  refine ⟨by simp [hdomain], fun j hj => by simp [hj, hdomain], fun k => ?_, by simp, by simp [State.SameReservation], by simp, by simp, by simp,
    by simp [State.OnlyTimers]⟩
  rw [State.updateDomain_accessors _ _ _ |>.1]
  exact State.removeMarks_unmarked h d k

/-- Settles O33: the refusals in order, and the two forms, each with its change of the domain's record. -/
theorem destroyDomainDestroys : Obligations.DestroyDomainDestroys := by
  unfold Obligations.DestroyDomainDestroys
  intro s w hcanonical h
  have hexec : exec .destroyDomain s = .next (destroyBody w s.takeRecord) := congrArg _ (h.run destroyBody)
  rw [hexec, destroyBody]
  simp only [State.takeRecord_accessors]
  generalize hd : s.domain (recDomainFin w.record) = d
  have hrefused : ∀ status, firstFailure [(d.state == .free, .noSuchDomain), (d.isBusy, .domainBusy)] = some status →
      (if recForce w.record = true then
        checkedJob .destroyDomain w [(d.state == .free, .noSuchDomain), (d.isBusy, .domainBusy)]
          (startDestroy w.ticket w.record) s.takeRecord
      else checked .destroyDomain w
        [(d.state == .free, .noSuchDomain), (d.isBusy, .domainBusy), (decide (0 < d.inUse), .domainNotEmpty)]
        (destroyEffect w.record) s.takeRecord) = s.takeRecord.answer w.ticket { status := status } := by
    intro status hs
    have hs' : firstFailure [(d.state == .free, .noSuchDomain), (d.isBusy, .domainBusy), (decide (0 < d.inUse), .domainNotEmpty)] =
        some status := by
      revert hs
      cases d.state == .free <;> cases d.isBusy <;> simp [firstFailure]
    split
    · rw [checkedJob, hs]; rfl
    · rw [checked_of_some hs']; rfl
  refine ⟨fun hfree => ?_, fun hused hbusy => ?_, fun hused hidle hforce hcount => ?_, fun hused hidle hform => ?_⟩
  · rw [hrefused .noSuchDomain (by simp [firstFailure, hfree])]
  · rw [hrefused .domainBusy (by simp [firstFailure, hused, hbusy])]
  · rw [if_neg hforce, checked_of_some (status := .domainNotEmpty) (by simp [firstFailure, hused, hidle, hcount])]
    rfl
  · have htake : s.takeRecord.Canonical := by simpa [State.Canonical] using hcanonical
    by_cases hforce : recForce w.record = true
    · have hspec := State.removeMarks_updateDomain htake (recDomainFin w.record) (fun d =>
        { d with state := .destroying, walk := some { position := 0, walkCount := 0, discardCount := 0, ticket := w.ticket } })
      refine ⟨_, ?_, by simpa only [if_pos hforce, State.takeRecord_accessors, State.OnlyDomain, State.Unmarked, State.SameReservation,
        State.takeRecord_frame, State.markAt, hd] using hspec⟩
      rw [if_pos hforce, if_pos hforce, checkedJob]
      simp [firstFailure, hused, hidle, startDestroy]
    · have hempty : d.inUse = 0 := hform.resolve_left hforce
      have hspec := State.removeMarks_updateDomain htake (recDomainFin w.record) (fun _ => Domain.reset)
      refine ⟨_, ?_, by simpa only [if_neg hforce, State.takeRecord_accessors, State.OnlyDomain, State.Unmarked, State.SameReservation,
        State.takeRecord_frame, State.markAt] using hspec⟩
      rw [if_neg hforce, if_neg hforce, checked_of_none (by simp [firstFailure, hused, hidle, hempty])]
      rfl

/-! ### Several frees in one claim -/

/-- Frees one after another, of different slots in use, are the frees in turn. -/
theorem freedInTurn_foldl (l : List Nat) : ∀ s : State, l.Nodup → (∀ k ∈ l, s.entryAt k ≠ none) →
    s.FreedInTurn l (l.foldl (fun s k => s.freeEntry k) s) := by
  induction l with
  | nil => exact fun s _ _ => rfl
  | cons k l ih =>
    intro s hn he
    obtain ⟨hkl, hl⟩ := List.nodup_cons.1 hn
    obtain ⟨e, hk⟩ := Option.ne_none_iff_exists'.1 (he k (by simp))
    have hfreed := State.freeEntry_freed hk
    refine ⟨e, s.freeEntry k, hk, hfreed, ih _ hl fun j hj => ?_⟩
    rw [State.entryAt, hfreed.2.1 j (by rintro rfl; exact hkl hj)]
    exact he j (by simp [hj])

/-- One claim's frees are frees one after another, in some order, with a choice used up where there is one to make. -/
theorem State.freeAll_eq_foldl (s : State) (l : List Nat) : ∃ l' : List Nat, l'.Perm l ∧
    s.freeAll l = l'.foldl (fun s k => s.freeEntry k) { s with choices := (s.freeAll l).choices } := by
  have hchoices : ∀ (l : List Nat) (s : State), (l.foldl (fun s k => s.freeEntry k) s).choices = s.choices := fun l s =>
    foldl_ind (Q := fun t => t.choices = s.choices) rfl fun t k _ h => by simpa using h
  unfold State.freeAll State.forEach
  split
  · exact ⟨l, .refl l, by rw [hchoices]⟩
  · exact ⟨_, List.perm_insertionSort _ l, by rw [hchoices]; rfl⟩

/-- R14, R15, R179, R185: one claim frees the entries of a canonical table that `p` selects, in an order that the spec leaves open. -/
theorem State.freeAll_entries (h : s.Canonical) (p : Nat × Entry → Bool) :
    let u := s.freeAll ((s.entries.filter p).map Prod.fst)
    ∃ freed : List Nat, freed.Nodup ∧ (∀ k, k ∈ freed ↔ ∃ e, s.entryAt k = some e ∧ p (k, e) = true) ∧
      u.table.freeList = s.table.freeList ++ freed ∧ ({ s with choices := u.choices } : State).FreedInTurn freed u ∧
      (∀ k ∈ freed, u.rowAt k = { generation := nextGeneration (s.generationAt k), entry := none, mark := none }) ∧
      (∀ k, k ∉ freed → u.rowAt k = s.rowAt k) ∧
      ∀ d, (∀ k e, s.entryAt k = some e → p (k, e) = true → e.domain = d) →
        (u.domain d).inUse = (s.domain d).inUse - freed.length ∧ s.OnlyDomain u d := by
  intro u
  obtain ⟨freed, hperm, hu⟩ := s.freeAll_eq_foldl ((s.entries.filter p).map Prod.fst)
  change u = freed.foldl (fun s k => s.freeEntry k) { s with choices := u.choices } at hu
  have hn : freed.Nodup := hperm.nodup_iff.2 (State.filter_entries_nodup h p)
  have hmem : ∀ k, k ∈ freed ↔ ∃ e, s.entryAt k = some e ∧ p (k, e) = true := fun k =>
    hperm.mem_iff.trans (State.mem_filter_entries h p k)
  have hused : ∀ k ∈ freed, ({ s with choices := u.choices } : State).entryAt k ≠ none := fun k hk => by
    obtain ⟨e, he, -⟩ := (hmem k).1 hk
    exact fun hnone => by cases he.symm.trans hnone
  have hturn := freedInTurn_foldl freed { s with choices := u.choices } hn hused
  obtain ⟨hrows, hothers, hlist, hdomains⟩ := foldl_freeEntry freed { s with choices := u.choices } hn hused
  rw [← hu] at hturn hrows hothers hlist hdomains
  refine ⟨freed, hn, hmem, hlist, hturn, hrows, hothers, fun d hd => hdomains d fun k hk e he => ?_⟩
  obtain ⟨e', he', hp⟩ := (hmem k).1 hk
  exact hd k e he (Option.some.inj (he'.symm.trans he) ▸ hp)

/-! ### The end of a job, and the rollback -/

/-- Settles O39: a job's end before its reply, and a rollback as one claim's frees and the return of the reservation. -/
theorem jobsEndAndRollBack : Obligations.JobsEndAndRollBack := by
  unfold Obligations.JobsEndAndRollBack
  refine ⟨fun s j status n wordA => ?_, fun s d hlegal => ?_⟩
  · refine ⟨_, rfl, rfl, ?_, fun i hi => ?_, rfl, rfl, rfl, rfl, rfl, rfl, rfl, rfl, rfl, rfl⟩
    · exact (State.domain_updateDomain ..).trans (if_pos rfl)
    · exact (State.domain_updateDomain ..).trans (if_neg hi)
  · obtain ⟨freed, hn, hmem, hlist, hturn, hrows, hothers, hdomains⟩ :=
      State.freeAll_entries (s := s) hlegal.1 (fun p => p.2.importMark)
    generalize hu : s.freeAll ((s.entries.filter (fun p => p.2.importMark)).map Prod.fst) = u at hlist hturn hrows hothers hdomains
    have hreservation : u.table.reservation = s.table.reservation := by rw [← hu]; simp
    have ht : s.rollback d = ({ u with table := { u.table with reservation := 0 } } : State).updateDomain d (fun r =>
        { r with inUse := r.inUse - s.table.reservation }) := by
      rw [← hreservation, ← hu]; rfl
    have hdomain : ∀ i, (s.rollback d).domain i = if i = d then { u.domain d with inUse := (u.domain d).inUse - s.table.reservation }
        else u.domain i := fun i => by rw [ht]; exact State.domain_updateDomain ..
    have hchoices : (s.rollback d).choices = u.choices := by rw [ht]; rfl
    have hrow : ∀ k, (s.rollback d).rowAt k = u.rowAt k := fun k => by rw [ht]; rfl
    refine ⟨fun k hk => ?_, fun k hk => ?_, by simp, by simp, ⟨freed, u, hn, hmem, ?_, ?_, ht, fun hd => ?_⟩, by simp, by simp, by simp,
      by simp, by simp, by simp, by simp⟩
    · rw [hrow, hrows k ((hmem k).2 hk)]
    · rw [hrow, hothers k fun h => hk ((hmem k).1 h)]
    · rw [ht]; exact hlist
    · rw [hchoices]; exact hturn
    · obtain ⟨hcount, honly⟩ := hdomains d hd
      refine ⟨?_, fun i hi => ?_⟩
      · rw [hdomain, if_pos rfl, ← hcount]
      · rw [hdomain, if_neg hi, honly i hi]

end Sys2Proof.Machine
end

section
/-! A running EXPORT: visits, the ends of its writes, and its release. -/

namespace Sys2Proof.Machine

variable {s t : State}

theorem State.ready_iff : s.ready = true ↔ s.host.device = .ready := by
  simp [State.ready]

/-! ### The job record -/

theorem State.updateJob_of_job {j : Job} (h : s.transfer.job = some j) (f : Job → Job) :
    s.updateJob f = { s with transfer := { job := some (f j) } } := by
  rw [State.updateJob, h]; rfl

theorem State.issue_of_job {j : Job} (h : s.transfer.job = some j) (q : Job → DmaRequest) : s.issue q = s.pushDma (q j) := by
  rw [State.issue, h]

/-- A job changed by `f` issues a transfer. -/
theorem State.updateJob_issue {j : Job} (h : s.transfer.job = some j) (f : Job → Job) (q : Job → DmaRequest) :
    (s.updateJob f).issue q = ({ s with transfer := { job := some (f j) } } : State).pushDma (q (f j)) := by
  rw [State.updateJob_of_job h]; rfl

/-- R177: beginning sums an EXPORT's header. -/
theorem Job.begun_eq (j : Job) :
    j.begun = if j.stage = .writing ∨ j.stage = .releasing then { j with runningSum := j.runningSum + wordSum j.header } else j := by
  unfold Job.begun
  cases j.stage <;> rfl

/-- The first transfer does not depend on the running sum. -/
theorem Job.firstTransfer_begun (j : Job) : j.begun.firstTransfer = j.firstTransfer := by
  rw [Job.begun_eq]
  split <;> rfl

/-- R175: the end of an ended job's transfer lets the present job begin. -/
theorem State.orphanEnded_of_job {j : Job} (h : s.transfer.job = some j) :
    s.orphanEnded = ({ s with transfer := { job := some (if j.stage = .writing ∨ j.stage = .releasing then
      { j with runningSum := j.runningSum + wordSum j.header } else j) } } : State).pushDma j.firstTransfer := by
  rw [State.orphanEnded, State.beginTransfers, State.updateJob_issue h, Job.firstTransfer_begun, Job.begun_eq]

theorem State.orphanEnded_of_no_job (h : s.transfer.job = none) : s.orphanEnded = s := by
  obtain ⟨_, _, _, _, _, _, _, _, _, ⟨job⟩, _, _⟩ := s
  cases h
  rfl

/-! ### The ends of transfers -/

/-- R175, R188: what the end of the Transfer Unit's write of an item does. -/
theorem exec_transferWriteDone {live : Bool} {item : TransferItem} {a : DWord} {n : Nat} {data : RecordBits}
    (h : s.host.dma.find? DmaRequest.isTransferWrite = some (.transferWrite live item a n data)) :
    (s.host.device ≠ .ready ∨ s.transfer.job = none → exec .transferWriteDone s = .next (s.endDma DmaRequest.isTransferWrite)) ∧
    ∀ j, s.host.device = .ready → s.transfer.job = some j →
      exec .transferWriteDone s = .next (if live then (s.endDma DmaRequest.isTransferWrite).jobWriteDone j item
        else (s.endDma DmaRequest.isTransferWrite).orphanEnded) := by
  have hexec : exec .transferWriteDone s = execTransferWriteDone s := rfl
  rw [hexec, execTransferWriteDone]
  simp only [h]
  refine ⟨fun hno => congrArg _ ?_, fun j hready hj => congrArg _ ?_⟩
  · split
    case isFalse => rfl
    case isTrue hready =>
      have hnone := hno.resolve_left fun hne => hne (State.ready_iff.1 hready)
      rw [State.orphanEnded_of_no_job (by simpa using hnone), hnone]
      exact ite_self _
  · rw [if_pos (State.ready_iff.2 hready), hj]

/-- R175, R188: what the end of the Transfer Unit's read of an item does. -/
theorem exec_transferReadDone {live : Bool} {item : TransferItem} {a : DWord} {n : Nat} (data : RecordBits)
    (h : s.host.dma.find? DmaRequest.isTransferRead = some (.transferRead live item a n)) :
    (s.host.device ≠ .ready ∨ s.transfer.job = none → exec (.transferReadDone data) s = .next (s.endDma DmaRequest.isTransferRead)) ∧
    ∀ j, s.host.device = .ready → s.transfer.job = some j →
      exec (.transferReadDone data) s = .next (if live then (s.endDma DmaRequest.isTransferRead).jobReadDone j item data
        else (s.endDma DmaRequest.isTransferRead).orphanEnded) := by
  have hexec : exec (.transferReadDone data) s = execTransferReadDone data s := rfl
  rw [hexec, execTransferReadDone]
  simp only [h]
  refine ⟨fun hno => congrArg _ ?_, fun j hready hj => congrArg _ ?_⟩
  · split
    case isFalse => rfl
    case isTrue hready =>
      have hnone := hno.resolve_left fun hne => hne (State.ready_iff.1 hready)
      rw [State.orphanEnded_of_no_job (by simpa using hnone), hnone]
      exact ite_self _
  · rw [if_pos (State.ready_iff.2 hready), hj]

/-! ### Visits -/

/-- R178: an EXPORT in its records stage with no transfer in flight visits the slot at its position. -/
theorem exec_exportVisit_of_job {j : Job} (hj : s.transfer.job = some j) (hready : s.host.device = .ready) (hstage : j.stage = .writing)
    (hidle : s.transferring = false) (hposition : j.position < 16384) : exec .exportVisit s = .next (s.visit j) := by
  have hexec : exec .exportVisit s = execExportVisit s := rfl
  rw [hexec, execExportVisit, hj]
  exact congrArg _ (if_pos ⟨State.ready_iff.2 hready, by simp [hidle], hstage, hposition⟩)

theorem exec_exportVisit_of_not (h : s.host.device ≠ .ready ∨ s.transferring = true ∨
    ∀ j, s.transfer.job = some j → j.stage ≠ .writing ∨ 16384 ≤ j.position) : exec .exportVisit s = .next s := by
  have hexec : exec .exportVisit s = execExportVisit s := rfl
  rw [hexec, execExportVisit]
  refine congrArg _ ?_
  split
  · rfl
  next j hj =>
    refine if_neg fun ⟨hready, hidle, hstage, hposition⟩ => ?_
    rcases h with h | h | h
    · exact h (State.ready_iff.1 hready)
    · simp [h] at hidle
    · exact (h j hj).elim (· hstage) fun h => absurd hposition (Nat.not_lt.2 h)

/-- R178: a visit of an entry of the exported set. -/
theorem State.visit_exported {j : Job} {e : Entry} (hj : s.transfer.job = some j) (he : s.entryAt j.position = some e)
    (hd : e.domain = j.domain) (hp : e.phase ≠ .fired) :
    s.visit j = ({ s with transfer := { job := some { j with
      position := j.position + 1, runningSum := j.runningSum + wordSum (encodeEntry e j.exportStart) } } } : State).pushDma
        (.transferWrite true .entryRecord (j.bufferAddress + BitVec.ofNat 64 (32 + 32 * j.recordsDone)) 32 (encodeEntry e j.exportStart)) := by
  have hexported : s.exported j j.position = some e := by simp [State.exported, he, hd, hp]
  rw [State.visit, hexported]
  simp only [State.updateJob_of_job hj]
  rfl

/-- R178: a visit of any other slot. -/
theorem State.visit_passedBy {j : Job} (hj : s.transfer.job = some j)
    (he : ∀ e, s.entryAt j.position = some e → ¬ (e.domain = j.domain ∧ e.phase ≠ .fired)) :
    s.visit j = if j.position + 1 = 16384 then
        ({ s with transfer := { job := some { j with position := j.position + 1 } } } : State).pushDma
          (.transferWrite true .trailer (j.bufferAddress + BitVec.ofNat 64 (32 + 32 * j.recordsDone)) 8
            (encodeTrailer j.runningSum j.recordCount))
      else { s with transfer := { job := some { j with position := j.position + 1 } } } := by
  have hpassed : s.exported j j.position = none := by
    rw [State.exported, Option.filter_eq_none_iff]
    exact fun e hk => by simpa using he e hk
  rw [State.visit, hpassed]
  simp only [State.updateJob_of_job hj]
  rfl

/-! ### The ends of an EXPORT's writes -/

/-- R177, R178: the end of an entry record's write. -/
theorem State.jobWriteDone_record {j : Job} (hj : s.transfer.job = some j) : s.jobWriteDone j .entryRecord =
    if j.position = 16384 then
      ({ s with transfer := { job := some { j with recordsDone := j.recordsDone + 1 } } } : State).pushDma
        (.transferWrite true .trailer (j.bufferAddress + BitVec.ofNat 64 (32 + 32 * (j.recordsDone + 1))) 8
          (encodeTrailer j.runningSum j.recordCount))
    else { s with transfer := { job := some { j with recordsDone := j.recordsDone + 1 } } } := by
  simp only [State.jobWriteDone, State.trailerIfLast, State.updateJob_of_job hj]
  rfl

/-! ### The release -/

theorem exec_exportRelease_of_not (h : s.host.device ≠ .ready ∨ ∀ j, s.transfer.job = some j → j.stage ≠ .releasing) :
    exec .exportRelease s = .next s := by
  have hexec : exec .exportRelease s = execExportRelease s := rfl
  rw [hexec, execExportRelease]
  refine congrArg _ ?_
  split
  · rfl
  next j hj =>
    refine if_neg fun ⟨hready, hstage⟩ => ?_
    exact h.elim (· (State.ready_iff.1 hready)) fun h => h j hj hstage

/-- R179: the release frees the exported set and ends the job. -/
theorem exec_exportRelease_of_job {j : Job} (hj : s.transfer.job = some j) (hready : s.host.device = .ready) (hstage : j.stage = .releasing) :
    exec .exportRelease s =
      .next ((s.freeAll (s.exportedSet j.domain)).endJob j .success j.recordCount (j.runningSum.setWidth 64)) := by
  have hexec : exec .exportRelease s = execExportRelease s := rfl
  rw [hexec, execExportRelease, hj]
  exact congrArg _ (if_pos ⟨State.ready_iff.2 hready, hstage⟩)

/-- Settles O58: visits, the ends of writes item by item, and the release as one claim's frees. -/
theorem exportWritesAndReleases : Obligations.ExportWritesAndReleases := by
  unfold Obligations.ExportWritesAndReleases
  refine ⟨fun s => exec_exportVisit_of_not, fun s => exec_exportRelease_of_not, fun s hnone => ?_, fun s j hready hj hstage hidle hposition => ?_,
    fun s live item a n data hfind => ?_, fun s j hlegal hready hj hstage => ?_⟩
  · have hexec : exec .transferWriteDone s = execTransferWriteDone s := rfl
    rw [hexec, execTransferWriteDone, hnone]
  · rw [exec_exportVisit_of_job hj hready hstage hidle hposition]
    refine ⟨fun e he hd hp => congrArg _ (State.visit_exported hj he hd hp), fun he => ?_⟩
    rw [State.visit_passedBy hj he]
    exact ⟨fun hlt => by rw [if_neg (Nat.ne_of_lt hlt)], fun heq => by rw [if_pos heq]⟩
  · obtain ⟨hno, hyes⟩ := exec_transferWriteDone hfind
    refine ⟨fun h => hno (.inl h), fun _ h => hno (.inr h), fun j hready hj => ?_⟩
    have hended : (s.endDma DmaRequest.isTransferWrite).transfer.job = some j := hj
    rw [hyes j hready hj]
    refine ⟨?_, ?_, ?_, ?_, ?_, ?_, ?_⟩
    · rintro rfl
      exact congrArg _ (State.orphanEnded_of_job hended)
    · rintro rfl rfl
      rfl
    · rintro rfl rfl hposition
      rw [if_pos rfl, State.jobWriteDone_record hended, if_neg hposition]
    · rintro rfl rfl hposition
      rw [if_pos rfl, State.jobWriteDone_record hended, if_pos hposition]
    · rintro rfl rfl hrelease
      rw [if_pos rfl, State.jobWriteDone, if_pos hrelease, State.updateJob_of_job hended]
    · rintro rfl rfl hrelease
      rw [if_pos rfl, State.jobWriteDone, if_neg (by simp [hrelease])]
    · rintro rfl rfl
      exact congrArg _ (State.issue_of_job hended _)
  · obtain ⟨freed, hn, hmem, hlist, hturn, hrows, hothers, hdomains⟩ :=
      State.freeAll_entries (s := s) hlegal.1 (fun p => p.2.domain == j.domain && p.2.phase != .fired)
    have hexported : ∀ k, k ∈ freed ↔ ∃ e, s.entryAt k = some e ∧ e.domain = j.domain ∧ e.phase ≠ .fired := by simpa using hmem
    obtain ⟨hcount, honly⟩ := hdomains j.domain fun k e _ hp => by simp at hp; exact hp.1
    exact ⟨_, freed, exec_exportRelease_of_job hj hready hstage, hn, hexported, hlist, by simp [State.SameReservation], hturn,
      fun k hk => hrows k ((hexported k).2 hk), fun k hk => hothers k fun h => hk ((hexported k).1 h), hcount, honly, by simp, by simp,
      by simp, by simp, by simp, by simp, by simp, by simp⟩

end Sys2Proof.Machine
end

section
/-! An import: the ends of its image reads, and its creation claims. -/

namespace Sys2Proof.Machine

variable {s t : State}

/-! ### Creation claims -/

/-- R13: when a creation claim has to wait. -/
theorem State.creationWaits_iff :
    s.creationWaits = true ↔ s.table.freeList = [] ∨ s.headMarked = true ∨ s.table.waiting.head? = some .arm := by
  simp [State.creationWaits, or_assoc]

/-- R13: a creation claim that has to wait stands in the waiting order once. -/
theorem State.waitCreation_eq (s : State) : s.waitCreation = if .creation ∈ s.table.waiting then s
    else { s with table := { s.table with waiting := s.table.waiting ++ [.creation] } } := by
  simp [State.waitCreation]

theorem exec_importCreation_of_not (h : s.host.device ≠ .ready ∨ ∀ j, s.transfer.job = some j → j.creation = none) :
    exec .importCreation s = .next s := by
  have hexec : exec .importCreation s = execImportCreation s := rfl
  rw [hexec, execImportCreation]
  refine congrArg _ ?_
  split
  · rfl
  next j hj =>
    split
    · rfl
    next r hr =>
      refine if_neg fun hready => ?_
      rcases h with h | h
      · exact h (State.ready_iff.1 hready)
      · cases (h j hj).symm.trans hr

theorem exec_importCreation_of_job {j : Job} {r : RecordBits} (hready : s.host.device = .ready) (hj : s.transfer.job = some j)
    (hr : j.creation = some r) : exec .importCreation s = .next (if s.creationWaits then s.waitCreation else s.create j r) := by
  have hexec : exec .importCreation s = execImportCreation s := rfl
  rw [hexec, execImportCreation, hj]
  dsimp only
  rw [hr]
  exact congrArg _ (if_pos (State.ready_iff.2 hready))

/-- R183: where an imported entry is put. -/
theorem State.putImported_spec (s : State) (k phaseCode : Nat) (e : Entry) :
    let t := s.putImported k phaseCode e
    let tripped := phaseCode = Phase.tripped.code
    let held := ¬ tripped ∧ e.deadline ≤ s.wheel.time
    t.rowAt k = { s.rowAt k with entry := some (if tripped then { e with phase := .tripped } else if held then { e with phase := .held }
      else e.placedAt s.wheel.time) } ∧ s.OnlyRow t k ∧
      t.wheel = (if tripped ∨ held then s.wheel else s.wheel.append k (placement s.wheel.time e.deadline)) ∧
      t.domain e.domain = { s.domain e.domain with
        held := if held then (s.domain e.domain).held ++ [k] else (s.domain e.domain).held } ∧ s.OnlyDomain t e.domain ∧
      t.expiry = { faultTrips := s.expiry.faultTrips + (if tripped ∧ e.faultOption = true then 1 else 0) } := by
  intro t tripped held
  have hset : ∀ (e' : Entry) (u : State), u.table = (s.setEntry k e').table →
      u.rowAt k = { s.rowAt k with entry := some e' } ∧ s.OnlyRow u k := fun e' u hu => by
    have hrow : ∀ j, u.rowAt j = (s.setEntry k e').rowAt j := State.rowAt_congr (by rw [hu])
    exact ⟨by simp [hrow], fun j hj => by simp [hrow, hj]⟩
  by_cases htripped : tripped
  · have ht : t = (s.setEntry k { e with phase := .tripped }).countTrip e.faultOption := if_pos htripped
    have hheld : ¬ held := fun h => h.1 htripped
    have hdomain : ∀ j, t.domain j = s.domain j := State.domain_congr (by simp [ht])
    obtain ⟨hrow, hothers⟩ := hset { e with phase := .tripped } t (by simp [ht])
    simp only [htripped, hheld, true_or, if_true, if_false, true_and]
    exact ⟨hrow, hothers, by simp [ht], hdomain _, fun j _ => hdomain j, by rw [ht, State.countTrip_expiry]; rfl⟩
  · by_cases hlt : s.wheel.time < e.deadline
    · have ht : t = s.place k e := (if_neg htripped).trans (if_pos hlt)
      have hheld : ¬ held := fun h => absurd hlt (Nat.not_lt.2 h.2)
      have hdomain : ∀ j, t.domain j = s.domain j := State.domain_congr (by simp [ht])
      obtain ⟨hrow, hothers, hwheel⟩ := s.place_spec k e
      simp only [htripped, hheld, or_self, false_and, if_false]
      rw [← ht] at hrow hothers hwheel
      exact ⟨hrow, hothers, hwheel, hdomain _, fun j _ => hdomain j, by simp [ht]⟩
    · have ht : t = (s.setEntry k { e with phase := .held }).updateDomain e.domain (fun d => { d with held := d.held ++ [k] }) :=
        (if_neg htripped).trans (if_neg hlt)
      have hheld : held := ⟨htripped, Nat.not_lt.1 hlt⟩
      obtain ⟨hrow, hothers⟩ := hset { e with phase := .held } t (by simp [ht])
      simp only [htripped, hheld, false_or, if_true, if_false, false_and]
      exact ⟨hrow, hothers, by simp [ht], by simp [ht, State.domain_congr (s := s) (t := s.setEntry k { e with phase := .held }) (by simp)],
        fun j hj => by simp [ht, hj, State.domain_congr (s := s) (t := s.setEntry k { e with phase := .held }) (by simp)], by simp [ht]⟩

/-- Settles O60: a creation claim waits, or takes the head of the free list and puts the entry. -/
theorem creationClaimsCreate : Obligations.CreationClaimsCreate := by
  unfold Obligations.CreationClaimsCreate
  refine ⟨fun s => exec_importCreation_of_not, fun s j r hready hj hr => ⟨fun hwaits => ?_, fun k rest hk hm hfirst => ?_⟩⟩
  · rw [exec_importCreation_of_job hready hj hr, if_pos (State.creationWaits_iff.2 hwaits), State.waitCreation_eq]
    exact ⟨fun h => by rw [if_pos h], fun h => by rw [if_neg h]⟩
  · have hwaits : ¬ s.creationWaits = true := fun h => by simpa [hk, hm, hfirst] using State.creationWaits_iff.1 h
    rw [exec_importCreation_of_job hready hj hr, if_neg hwaits]
    intro e tripped held put d
    generalize hv : ({ s.allocateHead e.ring with table := { (s.allocateHead e.ring).table with
      reservation := s.table.reservation - 1, waiting := s.table.waiting.filter (· != .creation) } } : State) = v
    have hcreate : s.create j r = ((v.putImported k (imagePhaseCode r) e).updateJob (·.created r)).pushDma
        (j.handleWrite (handleOf k (s.generationAt k))) := by
      rw [State.create, hk, ← hv]
      simp [e]
    have hrow : ∀ i, v.rowAt i = s.rowAt i := State.rowAt_congr (by simp [← hv])
    have hdomain : ∀ i, v.domain i = s.domain i := State.domain_congr (by simp [← hv])
    have hcr : ∀ i, v.cr i = if i = e.ring then { s.cr e.ring with bound := (s.cr e.ring).bound + 1 } else s.cr i := fun i => by
      rw [State.cr_congr (s := s.allocateHead e.ring) (by simp [← hv]), State.allocateHead_accessors s e.ring |>.2.2]
    have hwheel : v.wheel = s.wheel := by simp [← hv]
    have hexpiry : v.expiry = s.expiry := by simp [← hv]
    obtain ⟨hput, hothers, hplaced, hheld, honly, htrips⟩ := v.putImported_spec k (imagePhaseCode r) e
    rw [hwheel] at hput hplaced
    rw [hexpiry] at htrips
    simp only [hrow, hdomain, hwheel] at hput hheld
    refine ⟨_, congrArg _ hcreate, hput, fun i hi => (hothers i hi).trans (hrow i), ?_, ?_, ?_, hplaced, hheld,
      fun i hi => (honly i hi).trans (hdomain i), ?_, fun i hi => ?_, htrips, ?_, ?_, ?_, ?_, ?_, ?_, ?_, ?_⟩
    · simp [← hv, hk]
    · simp [← hv]
    · simp [← hv]
    · rw [State.cr_congr (s := v) (by simp), hcr, if_pos rfl]
    · rw [State.cr_congr (s := v) (by simp), hcr, if_neg hi]
    · simp [← hv, hj]; rfl
    all_goals simp [← hv]

/-! ### The ends of an import's reads -/

/-- R180: what a good header is. -/
theorem headerGood_iff (h : RecordBits) (length : Nat) : headerGood h length = true ↔
    h.extractLsb' 0 32 = 0x7E1640A5#32 ∧ h.extractLsb' 32 16 = 1#16 ∧ (h.extractLsb' 64 32).toNat ≤ 16384 ∧
      40 + 32 * (h.extractLsb' 64 32).toNat ≤ length := by
  unfold headerGood
  rw [Bool.and_eq_true, Bool.and_eq_true, Bool.and_eq_true, beq_iff_eq, beq_iff_eq, decide_eq_true_iff, decide_eq_true_iff, and_assoc, and_assoc]
  rfl

/-- R181: the image differs from the present Timebase, or names a ring that is CLOSED. -/
theorem State.mismatch_eq (s : State) (j : Job) : s.mismatch j =
    (j.imageSource != BitVec.ofNat 8 s.timebase.source.code || j.imageDivisor != BitVec.ofNat 32 (s.timebase.divisor.getD 0) ||
      decide (∃ c : Fin 8, 0 < j.ringRecords[c] ∧ (s.cr c).state = .closed)) := by
  rw [State.mismatch]
  congr 1
  rw [Bool.eq_iff_iff]
  simp

/-- R180: the end of an entry record's read in pass 1, well formed or not. -/
theorem Job.verifyRecord_eq (j : Job) (r : RecordBits) : j.verifyRecord r = if wellFormedRecord r = true then
      { j with runningSum := j.runningSum + wordSum r, position := j.position + 1
               ringRecords := updateAt j.ringRecords (Fin.ofNat 8 (r.extractLsb' 24 8).toNat) (· + 1) }
    else { j with runningSum := j.runningSum + wordSum r, position := j.position + 1, illFormed := true } := by
  unfold Job.verifyRecord
  cases wellFormedRecord r <;> simp [imageRingFin, imageRing, imageField]

/-- R182: the reservation and the start of pass 2. -/
theorem State.reserve_eq {j : Job} (hj : s.transfer.job = some j) : s.reserve j =
    ({ (({ s with transfer := { job := some { j with
          stage := .creating, position := 0, recordsDone := 0, pass1Sum := j.runningSum, runningSum := 0#32
          ringHolds := j.ringRecords } } } : State).updateDomain j.domain (fun d => { d with inUse := d.inUse + j.recordCount })) with
        table := { s.table with reservation := s.table.reservation + j.recordCount } } : State).pushDma
      (.transferRead true .header j.bufferAddress 32) := by
  rw [State.reserve, State.updateJob_issue (j := j) (by simpa using hj)]
  rfl

/-- R184: the import mark is cleared from every entry of a canonical table. -/
theorem State.clearImportMarks_rowAt (h : s.Canonical) (k : Nat) : s.clearImportMarks.rowAt k =
    { s.rowAt k with entry := (s.entryAt k).map (fun e => { e with importMark := false }) } :=
  lookupRow_mapRows (f := fun r => { r with entry := r.entry.map (fun e => { e with importMark := false }) }) (by rfl) h k

/-- R180, R181: pass 1, item by item. -/
theorem State.jobReadDone_verifying {j : Job} (h : j.stage = .verifying) (item : TransferItem) (data : RecordBits) :
    s.jobReadDone j item data = match item with
      | .header => s.verifyHeader j data
      | .entryRecord => (s.updateJob (·.verifyRecord data)).issue Job.nextRead
      | .trailer => s.verifyTrailer j data
      | .handle => s := by
  unfold State.jobReadDone
  rw [h]
  cases item <;> rfl

/-- R183, R184: pass 2, item by item. -/
theorem State.jobReadDone_creating {j : Job} (h : j.stage = .creating) (item : TransferItem) (data : RecordBits) :
    s.jobReadDone j item data = match item with
      | .header => (s.updateJob (fun j => { j with runningSum := j.runningSum + wordSum data })).issue Job.nextRead
      | .entryRecord => s.createRecord j data
      | .trailer => s.createTrailer j
      | .handle => s := by
  unfold State.jobReadDone
  rw [h]
  cases item <;> rfl

/-- An EXPORT reads nothing, and a handle is never read. -/
theorem State.jobReadDone_other {j : Job} {item : TransferItem} (h : j.stage = .writing ∨ j.stage = .releasing ∨ item = .handle)
    (data : RecordBits) : s.jobReadDone j item data = s := by
  unfold State.jobReadDone
  rcases h with h | h | rfl
  · rw [h]
  · rw [h]
  · cases j.stage <;> rfl

/-- Settles O59: the ends of an import's reads, by stage and item. -/
theorem importReadsImage : Obligations.ImportReadsImage := by
  unfold Obligations.ImportReadsImage
  refine ⟨fun s data hnone => ?_, fun s live item a n data hfind => ?_⟩
  · have hexec : exec (.transferReadDone data) s = execTransferReadDone data s := rfl
    rw [hexec, execTransferReadDone, hnone]
  · obtain ⟨hno, hyes⟩ := exec_transferReadDone data hfind
    refine ⟨fun h => hno (.inl h), fun _ h => hno (.inr h), fun j hready hj => ?_⟩
    intro count good goOn summed read dom checks begun
    have hended : (s.endDma DmaRequest.isTransferRead).transfer.job = some j := hj
    have hread : ∀ f : Job → Job, (f j).bufferAddress = j.bufferAddress →
        ((s.endDma DmaRequest.isTransferRead).updateJob f).issue Job.nextRead = read (f j) := fun f hf => by
      rw [State.updateJob_issue hended, Job.nextRead, Job.recordAddress, Job.recordAddress, hf]
    rw [hyes j hready hj]
    refine ⟨?_, ?_, ?_, ?_⟩
    · rintro rfl
      exact congrArg _ (State.orphanEnded_of_job hended)
    · rintro rfl hother
      rw [if_pos rfl, State.jobReadDone_other hother]
    · rintro rfl hstage
      rw [if_pos rfl, State.jobReadDone_verifying hstage]
      refine ⟨?_, ?_, ?_, ?_, ?_⟩
      · rintro rfl hgood
        exact congrArg _ ((if_pos ((headerGood_iff _ _).2 hgood)).trans (hread _ rfl))
      · rintro rfl hbad
        exact congrArg _ (if_neg (mt (headerGood_iff _ _).1 hbad))
      · rintro rfl hformed
        exact congrArg _ ((hread _ rfl).trans (by rw [Job.verifyRecord_eq, if_pos hformed]))
      · rintro rfl hformed
        exact congrArg _ ((hread _ rfl).trans (by rw [Job.verifyRecord_eq, if_neg (by simp [hformed])]))
      · rintro rfl
        have hchecks : pass1Checks (s.endDma DmaRequest.isTransferRead) j data = checks := by
          rw [pass1Checks, State.mismatch_eq]
          rfl
        dsimp only
        rw [State.verifyTrailer, hchecks]
        exact ⟨fun status h => by rw [h], fun h => by rw [h]; exact congrArg _ (State.reserve_eq hended)⟩
    · rintro rfl hstage
      rw [if_pos rfl, State.jobReadDone_creating hstage]
      refine ⟨?_, ?_, ?_, ?_, ?_⟩
      · rintro rfl
        exact congrArg _ (hread _ rfl)
      · rintro rfl hformed
        dsimp only
        rw [State.createRecord, if_neg (by simp [hformed]), State.failJob, hstage]
      · rintro rfl hformed
        intro claimed
        have hclaimed : (s.endDma DmaRequest.isTransferRead).updateJob (fun j => { j with
            runningSum := j.runningSum + wordSum data, position := j.position + 1, creation := some data }) = claimed :=
          State.updateJob_of_job hended _
        have hwaits : claimed.creationWaits = s.creationWaits := rfl
        have hcreate : (s.endDma DmaRequest.isTransferRead).createRecord j data = if s.creationWaits then claimed.waitCreation else claimed := by
          rw [State.createRecord, if_pos hformed, hclaimed, ← hwaits]
        dsimp only
        rw [hcreate, State.waitCreation_eq]
        refine ⟨fun h => ?_, fun hwait hnot => ?_⟩
        · split
          · exact congrArg _ (if_pos (h.resolve_left (by simpa using ‹_›)))
          · rfl
        · rw [if_pos hwait]
          exact congrArg _ (if_neg hnot)
      · rintro rfl hsum
        dsimp only
        rw [State.createTrailer, if_neg hsum, State.failJob, hstage]
      · rintro rfl hsum hcanonical
        refine ⟨_, congrArg _ (if_pos hsum), fun k => ?_, ?_⟩
        · exact State.clearImportMarks_rowAt (s := s.endDma DmaRequest.isTransferRead) hcanonical k
        · exact ⟨rfl, ⟨rfl, rfl⟩, rfl, rfl, rfl, rfl, rfl, rfl, rfl, rfl, rfl, rfl, rfl⟩

end Sys2Proof.Machine
end

section
/-! Expiries taken for writing, the ends of the Poster's writes, and the fires that a failed one restores. -/

namespace Sys2Proof.Machine

variable {s t : State}

/-! ### Taking an expiry for writing -/

/-- A ring record changed by `f` is the one that `f` makes of the present record. -/
theorem State.updateCr_eq_const (s : State) (c : Fin 8) (f : CompletionRing → CompletionRing) :
    s.updateCr c f = s.updateCr c (fun _ => f (s.cr c)) := rfl

/-- R159, R160: the head of the deferred list leaves it. -/
theorem CompletionRing.undefer_head {r : CompletionRing} {k : Nat} {rest : List Nat} (h : r.deferred = k :: rest) :
    r.undefer k = { r with deferred := r.deferred.filter (· != k), restoredRun := r.restoredRun - 1 } := by
  unfold CompletionRing.undefer
  congr 1
  rw [h]
  cases r.restoredRun <;> simp

/-- R161: the completion record of a pending expiry, field by field. -/
theorem expiryRecord_eq (k g : Nat) (e : Entry) (p : PendingExpiry) : expiryRecord k g e p =
    { kind := if p.kind = .guardTrip then .guardTrip else .expiry, status := 0#8
      flags := BitVec.ofNat 16 (p.holdover.toNat + 4 * e.faultOption.toNat), source := 0#8, tag := BitVec.ofNat 16 p.fireCount
      handle := handleOf k g, count := BitVec.ofNat 32 p.missedCount, wordA := e.cookie, wordB := BitVec.ofNat 64 p.latestDeadline } := by
  have hkind : p.kind.recordKind = if p.kind = .guardTrip then .guardTrip else .expiry := by cases p.kind <;> rfl
  have hflags : ∀ a b : Bool, flagHoldover a ||| flagFaultOption b = BitVec.ofNat 16 (a.toNat + 4 * b.toNat) := by decide
  rw [expiryRecord, hkind, hflags]

/-- Settles O53: the hand-over and the drain by the ring's space and its deferred list, and the take by the entry's phase. -/
theorem expiriesTakenForWriting : Obligations.ExpiriesTakenForWriting := by
  unfold Obligations.ExpiriesTakenForWriting
  refine ⟨fun s c k => ?_, fun s c k e p he hp => ?_⟩
  · intro r space
    have hspace : (s.ready ∧ (s.cr c).state = .active ∧ 1 ≤ (s.cr c).freeSpace) ↔ space := by rw [State.ready_iff]; rfl
    have hhand : s.handExpiry c k = if space ∧ r.deferred = [] then s.takeExpiry c k
        else s.updateCr c (fun r => { r with deferred := r.deferred ++ [k] }) := by
      rw [State.handExpiry]
      simp only [← hspace, and_assoc]
      rfl
    have hdrain : exec (.drain c) s = .next (if space then
        match r.deferred with
        | [] => s
        | k :: _ => (s.updateCr c (·.undefer k)).takeExpiry c k
        else s) := by
      simp only [← hspace]
      rfl
    refine ⟨fun h => by rw [hhand, if_pos h], fun h => by rw [hhand, if_neg h]; rfl, fun h => ?_, fun rest h hr => ?_⟩
    · rw [hdrain]
      refine congrArg _ ?_
      split
      · rw [h.resolve_left (not_not.2 ‹_›)]
      · rfl
    · rw [hdrain, if_pos h, hr]
      dsimp only
      rw [State.updateCr_eq_const, CompletionRing.undefer_head hr, hr]
  · intro g kept taken
    have htaken : taken = s.takeForWriting c false (expiryRecord k g e p) (.expiry k g p) := by rw [expiryRecord_eq]
    refine ⟨fun hf => ?_, fun hf => ⟨(taken.setEntry k kept).freeEntry k, State.freeEntry_freed (by simp [State.entryAt]), ?_⟩⟩
    · rw [State.takeExpiry_unfired he hp hf, htaken]
    · rw [htaken, State.takeExpiry]
      simp only [he, hp]
      exact if_pos hf

/-! ### The ends of the Poster's writes -/

/-- R161, R168: the end of the Poster's oldest write, done or failed. -/
theorem exec_writeDone {q : DmaRequest} (h : s.host.dma.find? DmaRequest.ofPoster = some q) :
    exec .writeDone s = .next (if s.ready then (s.endDma DmaRequest.ofPoster).writeEnded q else s.endDma DmaRequest.ofPoster) ∧
      exec .writeFailed s = .next (if s.ready then (s.endDma DmaRequest.ofPoster).writeFailed q else s.endDma DmaRequest.ofPoster) := by
  have hdone : exec .writeDone s = execWriteDone s := rfl
  have hfailed : exec .writeFailed s = execWriteFailed s := rfl
  rw [hdone, hfailed, execWriteDone, execWriteFailed, State.oldestWrite, h]
  exact ⟨rfl, rfl⟩

theorem PostingMark.belongsTo_iff {m : PostingMark} {c : Fin 8} {slot n : Nat} :
    m.belongsTo c slot n = true ↔ m.ring = c ∧ m.ringSlot = slot ∧ m.write = n := by
  simp [PostingMark.belongsTo, and_assoc]

/-- R166: a failed write to CR0 fails the device. -/
theorem State.writeFailed_cr0 {q : DmaRequest} (h : q.toRing 0 = true) : s.writeFailed q = s.fatal .cr0WriteError := by
  cases q with
  | recordWrite c slot n a data origin => exact if_pos (by simpa [DmaRequest.toRing] using h)
  | messageWrite c a data => exact if_pos (by simpa [DmaRequest.toRing] using h)
  | _ => cases h

/-- R166: a failed write to another ring that carries no expiry fails the ring. -/
theorem State.writeFailed_of_toRing {q : DmaRequest} {c : Fin 8} (hc : c ≠ 0) (h : q.toRing c = true)
    (hq : ∀ slot n a data k g p, q ≠ .recordWrite c slot n a data (.expiry k g p)) : s.writeFailed q = s.ringWriteFailed c := by
  cases q with
  | recordWrite c' slot n a data origin =>
    obtain rfl : c' = c := by simpa [DmaRequest.toRing] using h
    cases origin with
    | expiry k g p => exact absurd rfl (hq slot n a data k g p)
    | completion => exact if_neg hc
    | event => exact if_neg hc
  | messageWrite c' a data =>
    obtain rfl : c' = c := by simpa [DmaRequest.toRing] using h
    exact if_neg hc
  | _ => cases h

/-- Settles O55: the end of the Poster's oldest write, done or failed. -/
theorem writesEnd : Obligations.WritesEnd := by
  unfold Obligations.WritesEnd
  intro s ended
  refine ⟨fun hnone => ?_, fun q hq => ⟨fun hready => ?_, fun hready => ?_⟩⟩
  · have hdone : exec .writeDone s = execWriteDone s := rfl
    have hfailed : exec .writeFailed s = execWriteFailed s := rfl
    rw [hdone, hfailed, execWriteDone, execWriteFailed, State.oldestWrite, hnone]
    exact ⟨rfl, rfl⟩
  · obtain ⟨hdone, hfailed⟩ := exec_writeDone hq
    rw [hdone, hfailed, if_neg (mt State.ready_iff.1 hready), if_neg (mt State.ready_iff.1 hready)]
    exact ⟨rfl, rfl⟩
  · obtain ⟨hdone, hfailed⟩ := exec_writeDone hq
    rw [hdone, hfailed, if_pos (State.ready_iff.2 hready), if_pos (State.ready_iff.2 hready)]
    have hmark : ∀ k, ended.markAt k = s.markAt k := fun _ => rfl
    refine ⟨?_, fun hno => congrArg _ ?_, fun h => ?_, fun c hc h hother => ?_⟩
    · rintro c slot n a data k g p m rfl hm hring hslot hwrite
      refine congrArg _ (if_pos ?_)
      rw [hmark, hm]
      exact PostingMark.belongsTo_iff.2 ⟨hring, hslot, hwrite⟩
    · cases q with
      | recordWrite c slot n a data origin =>
        cases origin with
        | expiry k g p =>
          refine if_neg fun hany => ?_
          obtain ⟨m, hm, hb⟩ := (Option.any_eq_true _ _).1 hany
          exact hno c slot n a data k g p m rfl hm (PostingMark.belongsTo_iff.1 hb)
        | completion => rfl
        | event => rfl
      | _ => rfl
    · rw [State.writeFailed_cr0 h]
      exact congrArg _ (if_pos (State.ready_iff.2 hready))
    · rw [State.writeFailed_of_toRing hc h hother]
      rfl

/-! ### The fires of a failed record -/

/-- R167: an entry is restored to the front of the deferred list. -/
theorem CompletionRing.restoreFront_eq (r : CompletionRing) (k : Nat) : r.restoreFront k =
    if k ∈ r.deferred.take r.restoredRun then r
    else { r with
      deferred := (r.deferred.filter (· != k)).take r.restoredRun ++ k :: (r.deferred.filter (· != k)).drop r.restoredRun
      restoredRun := r.restoredRun + 1 } := by
  simp [CompletionRing.restoreFront]

/-- R64: how a failed record is merged. -/
theorem mergeExpiry_eq (held failed : PendingExpiry) : mergeExpiry held failed =
    { kind := held.kind, fireCount := min 65535 (held.fireCount + failed.fireCount)
      missedCount := min (2 ^ 32 - 1) (held.missedCount + failed.missedCount)
      latestDeadline := max held.latestDeadline failed.latestDeadline, holdover := held.holdover || failed.holdover } := by
  simp only [mergeExpiry, saturate, Config.maxCount16, Config.maxCount32, Nat.min_comm]

/-- R166: a ring that fails keeps its bound count. -/
theorem State.ringWriteFailed_bound (s : State) (c j : Fin 8) : ((s.ringWriteFailed c).cr j).bound = (s.cr j).bound := by
  have hcr : (s.ringWriteFailed c).cr j = (s.updateCr c CompletionRing.failWrite).cr j := rfl
  rw [hcr, State.cr_updateCr]
  split
  next h => subst h; unfold CompletionRing.failWrite; split <;> rfl
  · rfl

/-- R18, R64: all that the undoing of a free does. -/
theorem State.undoFree_spec (s : State) (k : Nat) (m : PostingMark) (p : Option PendingExpiry) :
    let t := s.undoFree k m p
    t.rowAt k = { generation := m.generation, entry := some { m.entry with pendingExpiry := p }, mark := none } ∧ s.OnlyRow t k ∧
      t.table.freeList = s.table.freeList.filter (· != k) ∧
      (∀ j, t.domain j = if j = m.entry.domain then { s.domain m.entry.domain with inUse := (s.domain m.entry.domain).inUse + 1 }
        else s.domain j) ∧
      ∀ j, t.cr j = if j = m.entry.ring then { s.cr m.entry.ring with bound := (s.cr m.entry.ring).bound + 1 } else s.cr j := by
  intro t
  let row : TableRow := { generation := m.generation, entry := some { m.entry with pendingExpiry := p }, mark := none }
  have hrow : ∀ j, t.rowAt j = (s.setRow k row).rowAt j := State.rowAt_congr (by simp [t, row, State.undoFree])
  refine ⟨by simp [hrow, row], fun j hj => by simp [hrow, hj], by simp [t, State.undoFree], fun j => ?_, fun j => ?_⟩
  · exact State.domain_updateDomain ..
  · exact State.cr_updateCr ..

/-- Settles O56: what a failed expiry record restores, by what its slot holds. -/
theorem failedFiresRestored : Obligations.FailedFiresRestored := by
  unfold Obligations.FailedFiresRestored
  intro s c slot n a data k g p hready hc hq failed front
  have hfront : ∀ r : CompletionRing, r.restoreFront k = front r := fun r => r.restoreFront_eq k
  have hexec : exec .writeFailed s = .next (failed.restoreFires c slot n k g p) := by
    rw [(exec_writeDone hq).2, if_pos (State.ready_iff.2 hready)]
    exact congrArg _ (if_neg hc)
  have hbound : ∀ j, (failed.cr j).bound = (s.cr j).bound := fun j => State.ringWriteFailed_bound (s.endDma DmaRequest.ofPoster) c j
  have htable : failed.table = s.table := rfl
  have hrow : ∀ j, failed.rowAt j = s.rowAt j := fun _ => rfl
  have hmark : failed.markAt k = s.markAt k := rfl
  have hentry : failed.entryAt k = s.entryAt k := rfl
  have hgeneration : failed.generationAt k = s.generationAt k := rfl
  have hdomain : ∀ d, failed.domain d = s.domain d := fun _ => rfl
  rw [hexec]
  refine ⟨fun m hm hg => ?_, fun e hm he hg => ?_, fun hmarked hused => ?_⟩
  · have hrestore : failed.restoreFires c slot n k g p = failed.restoreMarked c slot n k p m := by
      rw [State.restoreFires, hmark, hm]
      exact if_pos hg
    rw [hrestore, State.restoreMarked]
    intro own d
    refine ⟨fun hd => ?_, fun hd => ?_⟩
    · rw [if_pos (show (failed.domain m.entry.domain).state = .destroying from hd)]
      exact ⟨fun hown => congrArg _ (if_pos (PostingMark.belongsTo_iff.2 hown)),
        fun hother => congrArg _ (if_neg (mt PostingMark.belongsTo_iff.1 hother))⟩
    · rw [if_neg (show (failed.domain m.entry.domain).state ≠ .destroying from hd)]
      have hpending : (if m.belongsTo c slot n = true then m.entry.pendingExpiry else some p) =
          if own then m.entry.pendingExpiry else some p := by simp only [PostingMark.belongsTo_iff]; rfl
      dsimp only
      rw [hpending]
      generalize (if own then m.entry.pendingExpiry else some p) = pending
      obtain ⟨hput, hothers, hlist, hdomains, hrings⟩ := failed.undoFree_spec k m pending
      generalize hu : failed.undoFree k m pending = u at hput hothers hlist hdomains hrings
      refine ⟨_, rfl, hg ▸ hput, hothers, hlist, ?_, ?_, fun j hj => ?_, ?_, fun j hj => ?_, ?_, ?_, ?_, ?_, ?_, ?_, ?_, ?_, ?_⟩
      case refine_1 => exact ⟨by simp [← hu, htable], by simp [← hu, htable]⟩
      case refine_2 => exact (hdomains d).trans (if_pos rfl)
      case refine_3 => exact (hdomains j).trans (if_neg hj)
      case refine_4 => rw [State.cr_updateCr, if_pos rfl, hrings, if_pos rfl, hbound, hfront]
      case refine_5 => rw [State.cr_updateCr, if_neg hj, hrings, if_neg hj]
      all_goals simp [← hu, failed]
  · have hrestore : failed.restoreFires c slot n k g p = failed.restoreInUse k p e := by
      rw [State.restoreFires, hmark, hm, hentry, he]
      exact if_pos hg
    rw [hrestore, State.restoreInUse, funext hfront]
    cases e.pendingExpiry with
    | none => rfl
    | some held => exact congrArg _ (by simp only [mergeExpiry_eq])
  · refine congrArg _ ?_
    rw [State.restoreFires, hmark]
    cases hm : s.markAt k with
    | some m => exact if_neg (hmarked m hm)
    | none =>
      dsimp only
      rw [hentry]
      cases he : s.entryAt k with
      | none => rfl
      | some e => exact if_neg ((hused hm).resolve_left (by simp [he]))

end Sys2Proof.Machine
end

section
/-! The state after the power-on reset, and the changes of the device state. -/

namespace Sys2Proof.Machine

variable {s t : State}

/-! ### The power-on reset -/

theorem State.reset_domain (d : Fin 64) : State.reset.domain d = Domain.reset := by
  simp [State.domain, State.reset]

theorem State.reset_sr (i : Fin 8) : State.reset.sr i = SubmissionRing.reset := by
  simp [State.sr, State.reset, Fetcher.reset]

theorem State.reset_cr (c : Fin 8) : State.reset.cr c = CompletionRing.reset := by
  simp [State.cr, State.reset, Poster.reset]

theorem State.reset_entriesLegal : State.reset.EntriesLegal :=
  State.reset.entriesLegal_iff.2 ⟨fun _ h => (nomatch h), fun _ h => (nomatch h), fun _ _ h => (nomatch h), ExecutorState.legal_idle⟩

theorem State.reset_ringsLegal : State.reset.RingsLegal :=
  ⟨fun i => by rw [State.reset_sr]; rfl, fun c => by rw [State.reset_cr]; rfl⟩

/-- Settles O12: the reset state meets each invariant. -/
theorem resetMeetsInvariants : Obligations.ResetMeetsInvariants := by
  unfold Obligations.ResetMeetsInvariants
  refine ⟨(State.tableLegal_iff _).2 TimerTable.legal_reset, State.reset_entriesLegal, fun d => ?_, ?_, ?_, State.reset_ringsLegal, ?_, fun _ => ?_, ?_⟩
  · rw [State.reset_domain]; rfl
  · exact ⟨Nat.le_refl _, Nat.zero_le _⟩
  · rw [State.TimebaseLegal]; decide
  · exact ⟨.nil, fun _ h => nomatch h⟩
  · exact ⟨rfl, rfl, rfl, rfl, rfl, rfl, rfl, rfl, rfl, rfl⟩
  · exact ⟨rfl, Nat.zero_le _, fun _ h => nomatch h⟩

/-! ### The enable check -/

/-- R133, R151: the ring sizes are the powers of two from 16 to 4,096. -/
theorem badSize_eq_false (n : Nat) : badSize n = false ↔ ∃ m, 4 ≤ m ∧ m ≤ 12 ∧ n = 2 ^ m := by
  have hsizes : ringSizes = (List.range' 4 9).map (2 ^ ·) := by decide
  rw [badSize, Bool.not_eq_false', List.contains_iff_mem, hsizes, List.mem_map]
  refine exists_congr fun m => ?_
  rw [List.mem_range'_1, and_assoc]
  exact and_congr_right fun _ => and_congr Nat.lt_succ_iff eq_comm

theorem misaligned_eq_false (a : DWord) (k : Nat) : misaligned a k = false ↔ k ∣ a.toNat := by
  simp [misaligned, Nat.dvd_iff_mod_eq_zero]

/-- R190: what a valid admin configuration is. -/
theorem AdminRegisters.valid_iff (a : AdminRegisters) : a.valid = true ↔
    (∃ n, 4 ≤ n ∧ n ≤ 12 ∧ a.srSize.toNat = 2 ^ n) ∧ (∃ n, 4 ≤ n ∧ n ≤ 12 ∧ a.crSize.toNat = 2 ^ n) ∧ 64 ∣ a.srBase.toNat ∧
      64 ∣ a.crBase.toNat ∧ 4 ∣ a.msgAddress.toNat := by
  simp only [AdminRegisters.valid, Bool.and_eq_true, Bool.not_eq_true', badSize_eq_false, misaligned_eq_false, and_assoc]

/-- The state that R190's enable check makes of one with a valid admin configuration. -/
def State.enabled (s : State) : State :=
  { (s.updateSr 0 (fun _ => adminSubmission s.host.admin)).updateCr 0 (fun _ => adminCompletion s.host.admin) with
    host := { s.host with device := .ready, enable := true, fatalCause := .none } }

/-- R190: the enable check of a device whose ENABLE is 1. -/
theorem State.enableCheck_eq (h : s.host.enable = true) : s.enableCheck = if s.host.admin.valid then s.enabled
    else { s with host := { s.host with device := .failed, enable := true, fatalCause := .badAdminConfig } } := by
  have henabled : ∀ (d : DeviceState) (c : FatalCause),
      ({ s.host with device := d, fatalCause := c } : HostPort) = { s.host with device := d, enable := true, fatalCause := c } :=
    fun d c => by rw [← h]
  rw [State.enableCheck, henabled]
  split
  · exact congrArg (fun h => ({ s.enabled with host := h } : State)) (henabled .ready .none)
  · rfl

/-- R193: which claim the executor is taking. -/
theorem State.claiming_iff (s : State) : s.claiming = true ↔
    (∃ w, s.executor.state = .executing w ∧
      ¬ (kindOf w.record = some .abortTransfer ∧ w.ticket.source = 0 ∧ s.transfer.job ≠ none)) ∨
    ((∃ w, s.executor.state = .waiting w) ∧ s.headMarked = false ∧ s.table.waiting.head? = some .arm) := by
  unfold State.claiming
  cases hx : s.executor.state with
  | idle => simp
  | executing w =>
    cases s.transfer.job with
    | none => simp
    | some j => simp [imp_iff_not_or]
  | waiting w => simp [State.allocates]

/-- R193: when the drain is complete. -/
theorem State.drained_iff (s : State) : s.drained = true ↔ s.host.dma = [] ∧ s.wheel.step = none ∧ s.claiming = false := by
  simp [State.drained, and_assoc]

/-! ### The resets and the disable -/

/-- R193: the state after a disable, with what stays. -/
theorem State.resetBlocks_eq (s : State) : s.resetBlocks =
    { State.reset with host := { s.host with device := .disabled, dma := [] }, choices := s.choices, pending := s.pending } := rfl

/-- R193: a complete drain of a STOPPING device. -/
theorem exec_disable_of_drained (hdevice : s.host.device = .stopping) (h : s.drained = true) :
    exec .disable s = .next (if s.host.enable then s.resetBlocks.enableCheck else s.resetBlocks) := by
  have hexec : exec .disable s = execDisable s := rfl
  rw [hexec, execDisable, if_pos ⟨hdevice, h⟩]

theorem exec_disable_of_not (h : ¬ (s.host.device = .stopping ∧ s.drained = true)) : exec .disable s = .next s := by
  have hexec : exec .disable s = execDisable s := rfl
  rw [hexec, execDisable, if_neg h]

theorem exec_enableSet_of_enabled (h : s.host.enable = true) : exec .enableSet s = .next s := by
  have hexec : exec .enableSet s = .next s.writeEnable1 := rfl
  rw [hexec, State.writeEnable1, if_pos h]

/-- R190: a write of 1 to ENABLE that finds it 0. -/
theorem exec_enableSet_of_clear (h : s.host.enable = false) : exec .enableSet s = .next (if s.host.device = .disabled then
    ({ s with host := { s.host with enable := true } } : State).enableCheck else { s with host := { s.host with enable := true } }) := by
  have hexec : exec .enableSet s = .next s.writeEnable1 := rfl
  rw [hexec, State.writeEnable1, if_neg (by simp [h])]

/-- Settles O42: enabling, the start of the drain, the disable and the two resets, each with what stays. -/
theorem deviceStatesChange : Obligations.DeviceStatesChange := by
  unfold Obligations.DeviceStatesChange
  intro s size a valid enabled refused empty disabled claiming
  have hvalid : ∀ t : State, t.host.admin = a → (t.host.admin.valid = true ↔ valid) := fun t ht => ht ▸ AdminRegisters.valid_iff _
  have hreset : s.resetBlocks = disabled := s.resetBlocks_eq
  refine ⟨exec_enableSet_of_enabled, fun henable => ⟨fun hdevice => ?_, fun hdevice hv => ?_, fun hdevice hv => ?_⟩, fun henable => ?_,
    fun henable => ?_, fun h => ?_, fun hdevice hdma hstep hclaiming => ?_, rfl, rfl⟩
  · rw [exec_enableSet_of_clear henable, if_neg hdevice]
  · rw [exec_enableSet_of_clear henable, if_pos hdevice, State.enableCheck_eq rfl]
    exact congrArg _ (if_pos ((hvalid s rfl).2 hv))
  · rw [exec_enableSet_of_clear henable, if_pos hdevice, State.enableCheck_eq rfl]
    exact congrArg _ (if_neg (mt (hvalid s rfl).1 hv))
  · have hexec : exec .enableClear s = .next s.writeEnable0 := rfl
    rw [hexec, State.writeEnable0, if_neg (by simp [henable])]
  · have hexec : exec .enableClear s = .next s.writeEnable0 := rfl
    rw [hexec, State.writeEnable0, if_pos henable]
    split <;> rfl
  · refine exec_disable_of_not fun ⟨hdevice, hdrained⟩ => ?_
    obtain ⟨hdma, hstep, hidle⟩ := s.drained_iff.1 hdrained
    rcases h with h | h | h | h
    · exact h hdevice
    · exact h hdma
    · exact h hstep
    · exact absurd (s.claiming_iff.2 h) (by simp [hidle])
  · have hdrained : s.drained = true :=
      s.drained_iff.2 ⟨hdma, hstep, Bool.eq_false_iff.2 (mt s.claiming_iff.1 hclaiming)⟩
    rw [exec_disable_of_drained hdevice hdrained, hreset]
    refine ⟨fun henable => ?_, fun henable hv => ?_, fun henable hv => ?_⟩
    · rw [if_neg (by simp [henable])]
    · rw [if_pos henable, State.enableCheck_eq (s := disabled) henable]
      exact congrArg _ (if_pos ((hvalid disabled rfl).2 hv))
    · rw [if_pos henable, State.enableCheck_eq (s := disabled) henable]
      exact congrArg _ (if_neg (mt (hvalid disabled rfl).1 hv))

end Sys2Proof.Machine
end

section
/-! What every command does to wheel time W and device time N (R23, R91, R45). -/

namespace Sys2Proof.Machine

variable {s t u : State}

/-! ### The moves of W and N -/

/-- One command's change of W and N. -/
inductive State.TimeMove (s t : State) : Prop
  /-- R91: W stays, and `n` tick events raise N. -/
  | ticks (n : Nat) (hwheel : t.wheel.time = s.wheel.time) (hdevice : t.timebase.time = nextTime^[n] s.timebase.time)
  /-- R32: a wheel step begins, with W below N. -/
  | wheelStep (hlt : s.wheel.time < s.timebase.time) (hwheel : t.wheel.time = s.wheel.time + 1) (hdevice : t.timebase.time = s.timebase.time)
  /-- R45: SET TIMEBASE sets W to N. -/
  | setTimebase (hwheel : t.wheel.time = s.timebase.time) (hdevice : t.timebase.time = s.timebase.time)
  /-- R194: a reset or a disable. -/
  | reset (hwheel : t.wheel.time = 0) (hdevice : t.timebase.time = 0)

/-- A tick event leaves N at or above its value, and at most 2^64 − 1. -/
theorem nextTime_bounds {n : Nat} (h : n ≤ Config.maxTick) : n ≤ nextTime n ∧ nextTime n ≤ Config.maxTick :=
  ⟨Nat.le_min.2 ⟨Nat.le_succ n, h⟩, Nat.min_le_right _ _⟩

theorem nextTime_iterate_bounds {n : Nat} (h : n ≤ Config.maxTick) (k : Nat) :
    n ≤ nextTime^[k] n ∧ nextTime^[k] n ≤ Config.maxTick := by
  induction k with
  | zero => exact ⟨Nat.le_refl n, h⟩
  | succ k ih =>
    rw [Function.iterate_succ_apply']
    obtain ⟨hle, hmax⟩ := nextTime_bounds ih.2
    exact ⟨ih.1.trans hle, hmax⟩

/-- Every move keeps W at or below N, and N a tick value. -/
theorem State.TimeMove.wheelBehind (h : s.TimeMove t) (hs : s.WheelBehind) : t.WheelBehind := by
  obtain ⟨hle, hmax⟩ := hs
  unfold State.WheelBehind
  cases h with
  | ticks n hwheel hdevice =>
    rw [hwheel, hdevice]
    obtain ⟨hn, hn'⟩ := nextTime_iterate_bounds hmax n
    exact ⟨hle.trans hn, hn'⟩
  | wheelStep hlt hwheel hdevice => rw [hwheel, hdevice]; exact ⟨hlt, hmax⟩
  | setTimebase hwheel hdevice => rw [hwheel, hdevice]; exact ⟨Nat.le_refl _, hmax⟩
  | reset hwheel hdevice => rw [hwheel, hdevice]; exact ⟨Nat.le_refl _, Nat.zero_le _⟩

/-! ### Operations that leave W and N -/

/-- W and N stand as before. -/
def State.SameTimes (s t : State) : Prop := t.wheel.time = s.wheel.time ∧ t.timebase.time = s.timebase.time

theorem State.SameTimes.refl (s : State) : s.SameTimes s := ⟨rfl, rfl⟩

theorem State.SameTimes.trans (h : s.SameTimes t) (h' : t.SameTimes u) : s.SameTimes u := ⟨h'.1.trans h.1, h'.2.trans h.2⟩

theorem State.SameTimes.move (h : s.SameTimes t) : s.TimeMove t := .ticks 0 h.1 h.2

theorem State.SameTimes.answer (h : s.SameTimes t) (k : Ticket) (r : Reply) : s.SameTimes (t.answer k r) :=
  h.trans ⟨by simp, by simp⟩

theorem State.SameTimes.endCommand (h : s.SameTimes t) (k : Ticket) : s.SameTimes (t.endCommand k) := h.trans ⟨by simp, by simp⟩

theorem State.sameTimes_takeRecord (s : State) : s.SameTimes s.takeRecord := ⟨by simp, by simp⟩

/-- R106, R108: a command in hand leaves the times that its body leaves. -/
theorem sameTimes_runCommand {k : CommandKind} {fieldsBad : CommandBits → Nat → Bool} {body : Taken → State → State}
    (hbody : ∀ (w : Taken) (u : State), u.SameTimes (body w u)) : s.SameTimes (runCommand k fieldsBad body s) :=
  runCommand_ind (Q := s.SameTimes) (.refl s) (fun _ _ _ => s.sameTimes_takeRecord.answer _ _)
    fun w _ _ _ _ => s.sameTimes_takeRecord.trans (hbody w _)

theorem sameTimes_checked {k : CommandKind} {w : Taken} {checks : List (Bool × Status)} {effect : State → State × Reply}
    (heffect : s.SameTimes (effect s).1) : s.SameTimes (checked k w checks effect s) :=
  checked_ind (Q := s.SameTimes) (fun p => (State.SameTimes.refl s).answer _ p) fun _ => heffect.answer _ _

theorem sameTimes_checkedJob {k : CommandKind} {w : Taken} {checks : List (Bool × Status)} {start : State → State}
    (hstart : s.SameTimes (start s)) : s.SameTimes (checkedJob k w checks start s) :=
  checkedJob_ind (Q := s.SameTimes) (fun p => (State.SameTimes.refl s).answer _ p) fun _ => hstart.endCommand _

theorem sameTimes_armClaim (w : Taken) (s : State) : s.SameTimes (armClaim w s) :=
  sameTimes_checked ⟨by simp [armEffect], by simp [armEffect]⟩

theorem sameTimes_armBody (w : Taken) (s : State) : s.SameTimes (armBody w s) := by
  unfold armBody; split
  · exact ⟨rfl, rfl⟩
  · exact sameTimes_armClaim w s

theorem sameTimes_rearmBody (w : Taken) (s : State) : s.SameTimes (rearmBody w s) := by
  unfold rearmBody; split
  · exact (State.SameTimes.refl s).answer _ _
  · exact sameTimes_checked ⟨by simp [rearmEffect], by simp [rearmEffect]⟩

theorem sameTimes_cancelBody (w : Taken) (s : State) : s.SameTimes (cancelBody w s) := by
  unfold cancelBody; split
  · exact (State.SameTimes.refl s).answer _ _
  · exact sameTimes_checked ⟨by simp [cancelEffect], by simp [cancelEffect]⟩

theorem sameTimes_kickBody (w : Taken) (s : State) : s.SameTimes (kickBody w s) := by
  unfold kickBody; split
  · exact (State.SameTimes.refl s).answer _ _
  · exact sameTimes_checked ⟨by simp [kickEffect], by simp [kickEffect]⟩

theorem sameTimes_queryBody (w : Taken) (s : State) : s.SameTimes (queryBody w s) := by
  unfold queryBody; split <;> exact (State.SameTimes.refl s).answer _ _

theorem sameTimes_closeSubmissionBody (w : Taken) (s : State) : s.SameTimes (closeSubmissionBody w s) := by
  unfold closeSubmissionBody; dsimp only; split
  · exact (State.SameTimes.refl s).answer _ _
  · split
    · exact State.SameTimes.endCommand ⟨rfl, rfl⟩ _
    · exact State.SameTimes.answer ⟨by simp [State.closeSubmission], by simp [State.closeSubmission]⟩ _ _

theorem sameTimes_restartBody (w : Taken) (s : State) : s.SameTimes (restartBody w s) := by
  refine sameTimes_checked ?_
  unfold restartEffect; dsimp only
  split <;> exact ⟨by simp, by simp⟩

theorem sameTimes_destroyBody (w : Taken) (s : State) : s.SameTimes (destroyBody w s) := by
  unfold destroyBody; dsimp only; split
  · exact sameTimes_checkedJob ⟨rfl, rfl⟩
  · exact sameTimes_checked ⟨rfl, rfl⟩

theorem sameTimes_pauseBody (w : Taken) (s : State) : s.SameTimes (pauseBody w s) := by
  unfold pauseBody; exact sameTimes_checked ⟨rfl, rfl⟩

theorem sameTimes_resumeBody (w : Taken) (s : State) : s.SameTimes (resumeBody w s) := by
  refine sameTimes_checked ?_
  unfold resumeEffect; dsimp only
  split <;> exact ⟨by simp, by simp⟩

theorem sameTimes_exportBody (w : Taken) (s : State) : s.SameTimes (exportBody w s) := sameTimes_checkedJob ⟨by simp, by simp⟩

theorem sameTimes_importBody (w : Taken) (s : State) : s.SameTimes (importBody w s) := sameTimes_checkedJob ⟨by simp, by simp⟩

theorem sameTimes_abortBody (w : Taken) (s : State) : s.SameTimes (abortBody w s) := by
  unfold abortBody; split
  · exact (State.SameTimes.refl s).answer _ _
  · split
    · exact State.SameTimes.answer ⟨by simp, by simp⟩ _ _
    · exact .refl s

/-- R138, R139: an arbitration, with the take that may come before it. -/
theorem sameTimes_arbitration : ∀ {t}, execArbitration s = .next t → s.SameTimes t := by
  rintro t ⟨⟩
  have htake : s.SameTimes s.takeAhead := by
    unfold State.takeAhead; split
    · exact s.sameTimes_takeRecord
    · exact .refl s
  refine htake.trans ?_
  unfold State.holdArbitration; split
  · split <;> exact ⟨by simp, by simp⟩
  · exact .refl _

/-- R141, R148: the end of a fetch read. -/
theorem sameTimes_recordArrival (record : CommandBits) : ∀ {t}, execRecordArrival record s = .next t → s.SameTimes t := by
  rintro t ⟨⟩
  split
  · split <;> exact ⟨by simp, by simp⟩
  · exact .refl s

/-! ### The commands that move W or N -/

/-- R45: SET TIMEBASE leaves W and N, or sets W to N. -/
theorem timeMove_setTimebase (s : State) :
    s.TimeMove (runCommand .setTimebase (fun r _ => setTimebaseFieldsBad r) setTimebaseBody s) :=
  runCommand_ind (Q := s.TimeMove) (State.SameTimes.refl s).move (fun _ _ _ => (s.sameTimes_takeRecord.answer _ _).move)
    fun w _ _ _ _ => checked_ind (Q := s.TimeMove) (fun p => (s.sameTimes_takeRecord.answer _ p).move)
      fun _ => .setTimebase (by simp [setTimebaseEffect]) (by simp [setTimebaseEffect, Timebase.setTo])

/-! ### Writes to the register window -/

/-- What a write to the register window does to W and N: nothing, or what a reset does (R194). -/
def State.StillOrReset (s t : State) : Prop := s.SameTimes t ∨ (t.wheel.time = 0 ∧ t.timebase.time = 0)

theorem State.StillOrReset.move (h : s.StillOrReset t) : s.TimeMove t := h.elim (·.move) fun h => .reset h.1 h.2

theorem State.StillOrReset.trans (h : s.StillOrReset t) (h' : t.StillOrReset u) : s.StillOrReset u := by
  rcases h' with h' | h'
  · rcases h with h | ⟨hw, hn⟩
    · exact .inl (h.trans h')
    · exact .inr ⟨h'.1.trans hw, h'.2.trans hn⟩
  · exact .inr h'

theorem State.sameTimes_writeEnable1 (s : State) : s.SameTimes s.writeEnable1 := by
  unfold State.writeEnable1; split
  · exact .refl s
  · dsimp only; split <;> exact ⟨by simp, by simp⟩

theorem State.sameTimes_writeEnable0 (s : State) : s.SameTimes s.writeEnable0 := by
  unfold State.writeEnable0; split
  · dsimp only; split <;> exact ⟨rfl, rfl⟩
  · exact .refl s

theorem State.deviceReset_times (s : State) : s.deviceReset.wheel.time = 0 ∧ s.deviceReset.timebase.time = 0 := ⟨rfl, rfl⟩

theorem State.stillOrReset_writeRegister (s : State) (offset : Nat) (v : Word) : s.StillOrReset (s.writeRegister offset v) := by
  unfold State.writeRegister State.writeControl
  split
  · split
    · exact .inr s.deviceReset_times
    · split
      · exact .inl s.sameTimes_writeEnable1
      · exact .inl s.sameTimes_writeEnable0
  · split
    · exact .inl ⟨by simp, by simp⟩
    · split
      · exact .inl ⟨by simp, by simp⟩
      · split <;> exact .inl ⟨rfl, rfl⟩

theorem State.stillOrReset_writeWords (l : List Word) : ∀ (offset : Nat) (s : State), s.StillOrReset (State.writeWords offset l s) := by
  induction l with
  | nil => exact fun _ s => .inl (.refl s)
  | cons v rest ih => exact fun offset s => (s.stillOrReset_writeRegister offset v).trans (ih _ _)

theorem timeMove_registerWrite (offset : Nat) (width : AccessWidth) (value : List Word) :
    ∀ {t}, execRegisterWrite offset width value s = .next t → s.TimeMove t := by
  rintro t ⟨⟩
  split
  case h_4 => exact (State.stillOrReset_writeWords _ offset s).move
  all_goals exact (State.SameTimes.refl s).move

theorem timeMove_disable : ∀ {t}, execDisable s = .next t → s.TimeMove t := by
  rintro t ⟨⟩
  split
  · split
    · exact .reset (by simp [State.resetBlocks, Wheel.reset]) (by simp [State.resetBlocks, Timebase.reset])
    · exact .reset rfl rfl
  · exact (State.SameTimes.refl s).move

/-! ### Edges and ticks -/

/-- R98: how far counting an edge advances N. -/
theorem State.countEdge_time (s : State) : ∃ n, s.countEdge.timebase.time = nextTime^[n] s.timebase.time := by
  unfold State.countEdge; split
  · exact ⟨1, by simp⟩
  · exact ⟨0, rfl⟩

theorem State.countEdges_time (k : Nat) : ∀ s : State, ∃ n, (State.countEdges k s).timebase.time = nextTime^[n] s.timebase.time := by
  induction k with
  | zero => exact fun s => ⟨0, rfl⟩
  | succ k ih =>
    intro s
    obtain ⟨m, hm⟩ := s.countEdge_time
    obtain ⟨n, hn⟩ := ih s.countEdge
    exact ⟨n + m, by rw [Function.iterate_add_apply, ← hm]; exact hn⟩

theorem State.goodRunEvent_time (s : State) (elapsed : Nat) :
    ∃ n, (s.goodRunEvent elapsed).timebase.time = nextTime^[n] s.timebase.time := by
  unfold State.goodRunEvent; dsimp only; split
  · exact ⟨0, rfl⟩
  · exact State.countEdge_time _
  all_goals exact ⟨0, rfl⟩

theorem Timebase.judge_time (b : Timebase) (elapsed : Nat) : (b.judge elapsed).time = b.time := by
  unfold Timebase.judge; split
  · rfl
  · split <;> rfl

theorem State.plainEdge_time (s : State) (elapsed : Nat) : ∃ n, (s.plainEdge elapsed).timebase.time = nextTime^[n] s.timebase.time := by
  rw [← s.timebase.judge_time elapsed]
  unfold State.plainEdge; dsimp only; split
  · exact State.countEdge_time _
  · exact ⟨0, rfl⟩

/-- R91: an event that leaves W and makes some tick events. -/
theorem State.TimeMove.of_ticks (hwheel : t.wheel.time = s.wheel.time) (h : ∃ n, t.timebase.time = nextTime^[n] s.timebase.time) :
    s.TimeMove t := h.elim fun n hn => .ticks n hwheel hn

theorem timeMove_refinEdge (elapsed : Nat) : ∀ {t}, execRefinEdge elapsed s = .next t → s.TimeMove t := by
  rintro t ⟨⟩
  split
  · split
    · exact .of_ticks (by simp) (s.goodRunEvent_time elapsed)
    · exact .of_ticks (by simp) (s.plainEdge_time elapsed)
  · exact (State.SameTimes.refl s).move

theorem timeMove_goodRun (elapsed : Nat) : ∀ {t}, execGoodRun elapsed s = .next t → s.TimeMove t := by
  rintro t ⟨⟩
  split
  · exact .of_ticks (by simp) (s.goodRunEvent_time elapsed)
  · exact (State.SameTimes.refl s).move

theorem timeMove_loss : ∀ {t}, execLoss s = .next t → s.TimeMove t := by
  rintro t ⟨⟩
  split
  · dsimp only; split
    · exact .of_ticks (by simp) (State.countEdges_time _ _)
    · exact .ticks 0 rfl rfl
  · exact (State.SameTimes.refl s).move

theorem timeMove_edgeEquivalent : ∀ {t}, execEdgeEquivalent s = .next t → s.TimeMove t := by
  rintro t ⟨⟩
  split
  · exact .of_ticks (by simp) (State.countEdge_time _)
  · exact (State.SameTimes.refl s).move

/-! ### Every command -/

/-- What every command does to W and N. -/
theorem exec_timeMove (c : Instr) (h : exec c s = .next t) : s.TimeMove t := by
  have still : ∀ {v : State}, v.wheel.time = s.wheel.time → v.timebase.time = s.timebase.time → s.TimeMove v :=
    fun hw hn => State.SameTimes.move ⟨hw, hn⟩
  cases c with
  | arm => cases h; exact (sameTimes_runCommand sameTimes_armBody).move
  | rearm => cases h; exact (sameTimes_runCommand sameTimes_rearmBody).move
  | cancel => cases h; exact (sameTimes_runCommand sameTimes_cancelBody).move
  | kick => cases h; exact (sameTimes_runCommand sameTimes_kickBody).move
  | query => cases h; exact (sameTimes_runCommand sameTimes_queryBody).move
  | readStatus => cases h; exact (sameTimes_runCommand fun _ u => (State.SameTimes.refl u).answer _ _).move
  | openSubmissionRing => cases h; exact (sameTimes_runCommand fun _ u => sameTimes_checked ⟨rfl, rfl⟩).move
  | closeSubmissionRing => cases h; exact (sameTimes_runCommand sameTimes_closeSubmissionBody).move
  | openCompletionRing => cases h; exact (sameTimes_runCommand fun _ u => sameTimes_checked ⟨rfl, rfl⟩).move
  | closeCompletionRing => cases h; exact (sameTimes_runCommand fun _ u => sameTimes_checked ⟨rfl, rfl⟩).move
  | restartCompletionRing => cases h; exact (sameTimes_runCommand sameTimes_restartBody).move
  | setTimebase => cases h; exact timeMove_setTimebase s
  | createDomain => cases h; exact (sameTimes_runCommand fun _ u => sameTimes_checked ⟨rfl, rfl⟩).move
  | destroyDomain => cases h; exact (sameTimes_runCommand sameTimes_destroyBody).move
  | pauseDomain => cases h; exact (sameTimes_runCommand sameTimes_pauseBody).move
  | resumeDomain => cases h; exact (sameTimes_runCommand sameTimes_resumeBody).move
  | exportDomain => cases h; exact (sameTimes_runCommand sameTimes_exportBody).move
  | importDomain => cases h; exact (sameTimes_runCommand sameTimes_importBody).move
  | abortTransfer => cases h; exact (sameTimes_runCommand sameTimes_abortBody).move
  | invalidKind =>
    cases h; split
    · exact still rfl rfl
    · split
      · exact (s.sameTimes_takeRecord.answer _ _).move
      · exact still rfl rfl
  | allocation =>
    cases h; split
    · split
      · exact still (sameTimes_armClaim _ _).1 (sameTimes_armClaim _ _).2
      · exact still rfl rfl
    · exact still rfl rfl
    · exact still rfl rfl
  | srTailWrite ring value => cases h; exact still (by simp) (by simp)
  | crHeadWrite ring value => cases h; exact still (by simp) (by simp)
  | enableSet => cases h; exact s.sameTimes_writeEnable1.move
  | enableClear => cases h; exact s.sameTimes_writeEnable0.move
  | deviceReset => cases h; exact .reset rfl rfl
  | powerOnReset => cases h; exact .reset rfl rfl
  | deviceTimeLowRead offset width =>
    cases h
    obtain ⟨latch, hr⟩ := s.readAccess_spec offset width
    exact still (by simp [hr]) (by simp [hr])
  | registerWrite offset width value => exact timeMove_registerWrite offset width value h
  | disable => exact timeMove_disable h
  | arbitration => exact (sameTimes_arbitration h).move
  | recordArrival record => exact (sameTimes_recordArrival record h).move
  | readBusError =>
    cases h; split
    · split
      · split <;> exact still (by simp) (by simp)
      · exact still (by simp) (by simp)
    · exact still rfl rfl
  | tickEvent =>
    cases h; split
    · exact .ticks 1 (by simp) (by simp)
    · exact still rfl rfl
  | refinEdge elapsed => exact timeMove_refinEdge elapsed h
  | loss => exact timeMove_loss h
  | goodRun elapsed => exact timeMove_goodRun elapsed h
  | edgeEquivalent => exact timeMove_edgeEquivalent h
  | wheelStep =>
    cases h; split
    · rename_i hbegin
      obtain ⟨-, hlt, -⟩ := hbegin
      exact .wheelStep hlt rfl rfl
    · exact still rfl rfl
  | overflowSweep =>
    cases h; split
    · split <;> exact still (by simp) (by simp)
    · exact still rfl rfl
  | cascade =>
    cases h; split
    · split
      · exact still rfl rfl
      · split <;> exact still (by simp) (by simp)
    · exact still rfl rfl
  | l0Emptying =>
    cases h; split
    · split
      · exact still rfl rfl
      · split <;> exact still (by simp) (by simp)
    · exact still rfl rfl
  | stepEnd => cases h; split <;> exact still (by simp) (by simp)
  | take =>
    cases h; split
    · split
      · exact still rfl rfl
      · split <;> exact still (by simp) (by simp)
    · exact still rfl rfl
  | drain ring =>
    cases h; split
    · split <;> exact still (by simp) (by simp)
    · exact still rfl rfl
  | eventPost =>
    cases h; split
    · split <;> exact still (by simp) (by simp)
    · exact still rfl rfl
  | countTrigger ring => cases h; split <;> exact still (by simp) (by simp)
  | delayTrigger ring => cases h; split <;> exact still (by simp) (by simp)
  | writeDone =>
    cases h; split
    · exact still rfl rfl
    · dsimp only; split <;> exact still (by simp) (by simp)
  | writeFailed =>
    cases h; split
    · exact still rfl rfl
    · dsimp only; split <;> exact still (by simp) (by simp)
  | destroyWalkVisit domain =>
    cases h; split
    · exact still rfl rfl
    · split
      · split <;> exact still (by simp) (by simp)
      · exact still rfl rfl
  | destroyWalkEnd domain =>
    cases h; split
    · exact still rfl rfl
    · split <;> exact still (by simp) (by simp)
  | exportVisit =>
    cases h; split
    · exact still rfl rfl
    · split <;> exact still (by simp) (by simp)
  | transferWriteDone =>
    cases h; split
    · dsimp only; split
      · split
        · split <;> exact still (by simp) (by simp)
        · exact still (by simp) (by simp)
      · exact still (by simp) (by simp)
    · exact still rfl rfl
  | exportRelease =>
    cases h; split
    · exact still rfl rfl
    · split <;> exact still (by simp) (by simp)
  | transferReadDone data =>
    cases h; split
    · dsimp only; split
      · split
        · split <;> exact still (by simp) (by simp)
        · exact still (by simp) (by simp)
      · exact still (by simp) (by simp)
    · exact still rfl rfl
  | importCreation =>
    cases h; split
    · exact still rfl rfl
    · split
      · exact still rfl rfl
      · split
        · split <;> exact still (by simp) (by simp)
        · exact still rfl rfl
  | transferBusError =>
    cases h; split
    · exact still rfl rfl
    · dsimp only; split
      · split
        · split <;> exact still (by simp) (by simp)
        · exact still (by simp) (by simp)
      · exact still (by simp) (by simp)

/-- Settles O6: every move of W and N keeps W at or below N, and N a tick value. -/
theorem wheelStaysBehind : Obligations.WheelStaysBehind := by
  unfold Obligations.WheelStaysBehind
  exact fun s t => step_keeps (fun _ _ h => h) fun c s t hs h => (exec_timeMove c h).wheelBehind hs

end Sys2Proof.Machine
end

section
/-! Where a deadline is placed against wheel time (R25, R28). -/

namespace Sys2Proof.Machine

/-- R25: two tick values that agree above a digit agree above every higher one. -/
theorem agree_above_mono {d w l m : Nat} (hlm : l ≤ m) (h : d / 64 ^ (l + 1) = w / 64 ^ (l + 1)) :
    d / 64 ^ (m + 1) = w / 64 ^ (m + 1) := by
  have hpow : (64 : Nat) ^ (m + 1) = 64 ^ (l + 1) * 64 ^ (m - l) := by rw [← Nat.pow_add]; congr 1; omega
  rw [hpow, ← Nat.div_div_eq_div_mul, ← Nat.div_div_eq_div_mul, h]

/-- R28: a deadline later than W goes to the lowest level above whose digit it agrees with W. -/
theorem placement_eq_slot {w d : Nat} (hlt : w < d) (l : Fin 4) (hl : d / 64 ^ (l.val + 1) = w / 64 ^ (l.val + 1))
    (hbelow : ∀ m, m < l.val → d / 64 ^ (m + 1) ≠ w / 64 ^ (m + 1)) : placement w d = .slot l (digit l.val d) := by
  have hno : ∀ m, m < l.val → agreeAbove m d w = false := fun m hm => beq_eq_false_iff_ne.2 (hbelow m hm)
  have hyes : agreeAbove l.val d w = true := beq_iff_eq.2 hl
  rw [placement, if_neg (Nat.not_le.2 hlt)]
  match l with
  | 0 => exact if_pos hyes
  | 1 => rw [if_neg (by simp [hno])]; exact if_pos hyes
  | 2 => rw [if_neg (by simp [hno]), if_neg (by simp [hno])]; exact if_pos hyes
  | 3 => rw [if_neg (by simp [hno]), if_neg (by simp [hno]), if_neg (by simp [hno])]; exact if_pos hyes

/-- R28: and to the overflow list when there is no such level. -/
theorem placement_eq_overflow {w d : Nat} (hlt : w < d) (h : ∀ m, m < 4 → d / 64 ^ (m + 1) ≠ w / 64 ^ (m + 1)) :
    placement w d = .overflow := by
  have hno : ∀ m, m < 4 → agreeAbove m d w = false := fun m hm => beq_eq_false_iff_ne.2 (h m hm)
  simp [placement, Nat.not_le.2 hlt, hno]

/-- R25: two tick values agree above some lowest digit, or above none of the four. -/
theorem lowest_agreement (d w : Nat) :
    (∃ l : Fin 4, d / 64 ^ (l.val + 1) = w / 64 ^ (l.val + 1) ∧ ∀ m, m < l.val → d / 64 ^ (m + 1) ≠ w / 64 ^ (m + 1)) ∨
      ∀ m, m < 4 → d / 64 ^ (m + 1) ≠ w / 64 ^ (m + 1) := by
  by_cases h : ∃ m, m < 4 ∧ d / 64 ^ (m + 1) = w / 64 ^ (m + 1)
  · obtain ⟨hlt, heq⟩ := Nat.find_spec h
    refine .inl ⟨⟨Nat.find h, hlt⟩, heq, fun m hm heq' => Nat.find_min h hm ⟨hm.trans hlt, heq'⟩⟩
  · exact .inr fun m hm heq => h ⟨m, hm, heq⟩

/-- Settles O15, by the lowest level of agreement, which decides where the deadline goes. -/
theorem placementByAgreement : Obligations.PlacementByAgreement := by
  unfold Obligations.PlacementByAgreement
  refine fun w d => ⟨placement_eq_dueQueue.2, fun hlt => ⟨fun l i => ⟨fun h => ?_, fun ⟨hl, hbelow, hi⟩ => ?_⟩, fun h => ?_, fun h => ?_⟩⟩
  · rcases lowest_agreement d w with ⟨l', hl, hbelow⟩ | hnone
    · rw [placement_eq_slot hlt l' hl hbelow, Location.slot.injEq] at h
      obtain ⟨rfl, rfl⟩ := h
      exact ⟨hl, hbelow, rfl⟩
    · rw [placement_eq_overflow hlt hnone] at h
      cases h
  · rw [placement_eq_slot hlt l hl hbelow]
    exact congrArg _ (Fin.ext hi.symm)
  · rcases lowest_agreement d w with ⟨l, hl, hbelow⟩ | hnone
    · rw [placement_eq_slot hlt l hl hbelow] at h
      cases h
    · exact hnone 3 (by decide)
  · exact placement_eq_overflow hlt fun m hm heq => h (agree_above_mono (Nat.le_of_lt_succ hm) heq)

end Sys2Proof.Machine
end

section
/-! The wheel's two tests of lag (R42, R43), and SET TIMEBASE, which makes one of them (R45, R101, R102, R125). -/

namespace Sys2Proof.Machine

variable {s t : State}

/-! ### The two tests -/

/-- R43: an overrun wheel that has caught up, of a device that makes the test. -/
def State.CaughtUp (s : State) : Prop := s.host.device ≠ .failed ∧ s.wheel.overrun = true ∧ s.wheel.time = s.timebase.time

theorem State.caughtUpTest_of_not (h : ¬ s.CaughtUp) : s.caughtUpTest = s := if_neg h

theorem State.caughtUpTest_of_caughtUp (h : s.CaughtUp) : s.caughtUpTest =
    if s.ready then ({ s with wheel := { s.wheel with overrun := false } } : State).raise .wheelCaughtUp .timingWheel .none
    else { s with wheel := { s.wheel with overrun := false } } := if_pos h

/-- R164: what a raising adds depends on the Poster and on N alone. -/
theorem State.raise_poster_congr (hposter : t.poster = s.poster) (htime : t.timebase.time = s.timebase.time) (k : EventKind)
    (src : EventSource) (cause : ErrorCause) : (t.raise k src cause).poster = (s.raise k src cause).poster := by
  simp only [State.raise, hposter, htime]

/-- R43, R44: at SET TIMEBASE, when W has been set to N: the test leaves no overrun, but on a FAILED device. -/
theorem State.caughtUpTest_of_level (htime : s.wheel.time = s.timebase.time) :
    s.caughtUpTest.wheel = { s.wheel with overrun := if s.host.device = .failed then s.wheel.overrun else false } ∧
      s.caughtUpTest.poster =
        (if s.wheel.overrun = true ∧ s.host.device = .ready then s.raise .wheelCaughtUp .timingWheel .none else s).poster := by
  by_cases hfailed : s.host.device = .failed
  · rw [State.caughtUpTest_of_not fun h => h.1 hfailed, if_pos hfailed, if_neg (by simp [hfailed])]
    exact ⟨rfl, rfl⟩
  · rw [if_neg hfailed]
    cases hoverrun : s.wheel.overrun with
    | false =>
      rw [State.caughtUpTest_of_not (by simp [State.CaughtUp, hoverrun]), if_neg (by simp), ← hoverrun]
      exact ⟨rfl, rfl⟩
    | true =>
      rw [State.caughtUpTest_of_caughtUp ⟨hfailed, hoverrun, htime⟩]
      by_cases hready : s.host.device = .ready
      · rw [if_pos (State.ready_iff.2 hready), if_pos ⟨rfl, hready⟩]
        exact ⟨rfl, rfl⟩
      · rw [if_neg (mt State.ready_iff.1 hready), if_neg fun h => hready h.2]
        exact ⟨rfl, rfl⟩

/-! ### SET TIMEBASE -/

/-- Section 11.4: the flags of a SET TIMEBASE completion as one number. -/
theorem flagTimebase_eq (state : TimebaseState) : flagTimebase state = BitVec.ofNat 16 (512 * state.code) := by
  cases state <;> decide

/-- R101: what refuses a SET TIMEBASE. -/
theorem State.timersPresent_iff (s : State) : s.timersPresent = true ↔ s.entries ≠ [] ∨ 0 < s.table.reservation := by
  simp [State.timersPresent]

/-- Section 11.6: the tick source of a SET TIMEBASE that has passed its field checks. -/
theorem tickSource_of_fields {r : CommandBits} (h : setTimebaseFieldsBad r = false) :
    TickSource.ofCode (recTimerKind r).toNat = some (if recTimerKind r = 2#8 then .internal else .reference) := by
  have hcode : TickSource.ofCode (recTimerKind r).toNat ≠ none := by
    intro hnone
    simp [setTimebaseFieldsBad, hnone] at h
  have htwo : recTimerKind r = 2#8 ↔ (recTimerKind r).toNat = 2 := BitVec.toNat_inj.symm
  simp only [htwo]
  unfold TickSource.ofCode at hcode ⊢
  split
  · rw [if_neg (by omega)]
  · split
    · rfl
    · simp_all

/-- R102: N keeps its value. -/
@[simp] theorem Timebase.setTo_time (b : Timebase) (r : CommandBits) : (b.setTo r).time = b.time := rfl

/-- R93, R102: what a SET TIMEBASE makes of the Timebase. -/
theorem Timebase.setTo_eq (b : Timebase) {r : CommandBits} {internal : Prop} [Decidable internal]
    (h : TickSource.ofCode (recTimerKind r).toNat = some (if internal then .internal else .reference)) : b.setTo r =
    { time := b.time, state := if internal then .freeRunning else .acquiring
      source := if internal then .internal else .reference, divisor := some (recLengthA r)
      nominal := if internal then none else some (recLengthB r).toNat, edgeCounter := 0, equivalentStart := none
      goodRunCount := 0, runLengthSum := 0, measuredRatio := none, lastEdge := none, lossWindowStart := 0
      latch := b.latch } := by
  unfold Timebase.setTo
  by_cases hi : internal <;> simp [h, hi, Timebase.reset]

/-- R102, R45: the state before the caught-up test of a SET TIMEBASE: the Timebase set, and W at N. -/
def State.timebaseSet (s : State) (r : CommandBits) : State :=
  { s with timebase := s.timebase.setTo r, wheel := { s.wheel with time := s.timebase.time } }

/-- R102, R125: the effect of a SET TIMEBASE, with its reply. -/
theorem setTimebaseEffect_eq (r : CommandBits) (s : State) : setTimebaseEffect r s = ((s.timebaseSet r).caughtUpTest,
    { status := .success, wordA := BitVec.ofNat 64 s.timebase.time, flags := BitVec.ofNat 16 (512 * (s.timebase.setTo r).state.code) }) := by
  simp [setTimebaseEffect, State.timebaseSet, flagTimebase_eq]

/-- Settles O31: the refusal, and the claim of the Timebase and the Timing Wheel, with its caught-up test at W = N. -/
theorem setTimebaseSets : Obligations.SetTimebaseSets := by
  unfold Obligations.SetTimebaseSets
  intro s w h r internal
  have hexec : exec .setTimebase s = .next (setTimebaseBody w s.takeRecord) := congrArg _ (h.run setTimebaseBody)
  have hentries : s.takeRecord.entries = s.entries := (State.tableReads_congr (by simp) (by simp)).2.1
  have hpresent : s.takeRecord.timersPresent = true ↔ s.entries ≠ [] ∨ 0 < s.table.reservation := by
    rw [State.timersPresent_iff, hentries, State.takeRecord_frame _ |>.2.1]
  rw [hexec, setTimebaseBody]
  refine ⟨fun hkept => ?_, fun hempty hnone => ⟨(s.takeRecord.timebaseSet r).caughtUpTest, ?_, ?_, ?_, ?_, ?_⟩⟩
  · rw [checked_of_some (status := .timersPresent) (by simp [firstFailure, hpresent.2 hkept]), refusal_of_no_handle rfl]
  · have hfree : s.takeRecord.timersPresent = false := by
      rw [Bool.eq_false_iff, ne_eq, hpresent]; simp [hempty, hnone]
    rw [checked_of_none (by simp [firstFailure, hfree]), setTimebaseEffect_eq, Timebase.setTo_eq _ (tickSource_of_fields h.2.2)]
    simp [r, internal]
  · simpa [State.timebaseSet] using s.timebase.setTo_eq (tickSource_of_fields h.2.2)
  · simpa [State.timebaseSet] using (State.caughtUpTest_of_level (s := s.takeRecord.timebaseSet r) rfl).1
  · have hraise := State.raise_poster_congr (s := s) (t := s.takeRecord.timebaseSet r) (by simp [State.timebaseSet])
      (by simp [State.timebaseSet]) .wheelCaughtUp .timingWheel .none
    rw [(State.caughtUpTest_of_level (s := s.takeRecord.timebaseSet r) rfl).2, apply_ite State.poster, hraise, apply_ite State.poster]
    simp [State.timebaseSet]
  · simp [State.timebaseSet]

end Sys2Proof.Machine
end

section
/-! The wheel step: when it begins and ends, and what it moves at each stage (section 2.5). -/

namespace Sys2Proof.Machine

variable {s t : State}

/-! ### What a step has left to move -/

theorem Wheel.sweepLeft_of_none {w : Wheel} (h : w.step = none) : w.sweepLeft = 0 := by simp [Wheel.sweepLeft, h]

theorem Wheel.sweepLeft_of_some {w : Wheel} {p : WheelStep} (h : w.step = some p) : w.sweepLeft = p.sweepLeft := by
  simp [Wheel.sweepLeft, h]

/-- R34: the cascade of a level has an entry left. -/
theorem State.cascadeLeft_iff (s : State) (l : Fin 4) : s.wheel.cascadeLeft l = true ↔
    s.wheel.time % 64 ^ l.val = 0 ∧ s.wheelSlot l (Fin.ofNat 64 (s.wheel.time / 64 ^ l.val)) ≠ [] := by
  rw [Wheel.cascadeLeft, Bool.and_eq_true, beq_iff_eq, bne_iff_ne]; rfl

/-- R32: the cascades are complete when none of levels 1 to 3 has an entry left. -/
theorem Wheel.cascadeLevel_eq_none {w : Wheel} : w.cascadeLevel = none ↔ ∀ l : Fin 4, l ≠ 0 → ¬ w.cascadeLeft l = true := by
  rw [Wheel.cascadeLevel, List.find?_eq_none]
  refine forall_congr' fun l => imp_congr_left ?_
  revert l; decide

/-- R32: otherwise the highest level with an entry left is cascaded. -/
theorem Wheel.cascadeLevel_eq_some {w : Wheel} {l : Fin 4} (hl : l ≠ 0) (h : w.cascadeLeft l = true)
    (hhigher : ∀ m : Fin 4, l < m → ¬ w.cascadeLeft m = true) : w.cascadeLevel = some l := by
  match l with
  | 0 => exact absurd rfl hl
  | 1 => simp [Wheel.cascadeLevel, h, hhigher 3 (by decide), hhigher 2 (by decide)]
  | 2 => simp [Wheel.cascadeLevel, h, hhigher 3 (by decide)]
  | 3 => simp [Wheel.cascadeLevel, h]

/-- R35: the L0 slot at W. -/
theorem State.emptyingSlot_eq (s : State) : s.wheel.emptyingSlot = s.wheelSlot 0 (Fin.ofNat 64 s.wheel.time) := by
  simp [Wheel.emptyingSlot, State.wheelSlot, digit]

/-! ### The beginning and the end of a step -/

theorem exec_wheelStep_of_not (h : s.host.device ≠ .ready ∨ s.timebase.time ≤ s.wheel.time ∨ s.wheel.step ≠ none) :
    exec .wheelStep s = .next s := by
  refine congrArg _ (if_neg fun ⟨hready, hlt, hstep⟩ => ?_)
  rcases h with h | h | h
  · exact h (State.ready_iff.1 hready)
  · exact absurd hlt (Nat.not_lt.2 h)
  · exact h hstep

/-- R32, R33: a step begins. -/
theorem exec_wheelStep_of_behind (hready : s.host.device = .ready) (hlt : s.wheel.time < s.timebase.time) (hstep : s.wheel.step = none) :
    exec .wheelStep s = .next { s with wheel := { s.wheel with
      time := s.wheel.time + 1
      step := some { sweepLeft := if 2 ^ 24 ∣ s.wheel.time + 1 then s.wheel.overflow.length else 0 } } } := by
  refine congrArg _ ((if_pos ⟨State.ready_iff.2 hready, hlt, hstep⟩).trans ?_)
  simp only [Nat.dvd_iff_mod_eq_zero]

/-- R32: a step in progress has moved all that it has to move. -/
def Wheel.StepDone (w : Wheel) : Prop := w.step ≠ none ∧ w.sweepLeft = 0 ∧ w.cascadeLevel = none ∧ w.emptyingSlot = []

theorem exec_stepEnd_of_not (h : ¬ s.wheel.StepDone) : exec .stepEnd s = .next s := congrArg _ (if_neg h)

/-- R32: the step in progress is over, before the caught-up test. -/
def State.stepEnded (s : State) : State := { s with wheel := { s.wheel with step := none } }

theorem exec_stepEnd_of_done (h : s.wheel.StepDone) : exec .stepEnd s = .next s.stepEnded.caughtUpTest := congrArg _ (if_pos h)

/-- R32: a step in progress has something left to sweep, to cascade or to empty. -/
theorem State.stepDone_iff (s : State) : s.wheel.StepDone ↔ s.wheel.step ≠ none ∧
    ¬ ((∃ p, s.wheel.step = some p ∧ 0 < p.sweepLeft) ∨
      (∃ l : Fin 4, l ≠ 0 ∧ s.wheel.time % 64 ^ l.val = 0 ∧ s.wheelSlot l (Fin.ofNat 64 (s.wheel.time / 64 ^ l.val)) ≠ []) ∨
      s.wheelSlot 0 (Fin.ofNat 64 s.wheel.time) ≠ []) := by
  unfold Wheel.StepDone
  rw [Wheel.cascadeLevel_eq_none, State.emptyingSlot_eq]
  simp only [State.cascadeLeft_iff]
  cases hstep : s.wheel.step with
  | none => simp
  | some p =>
    rw [Wheel.sweepLeft_of_some hstep]
    simp

/-- Settles O49: the two guards, and the caught-up test that the end of a step makes. -/
theorem wheelStepBeginsAndEnds : Obligations.WheelStepBeginsAndEnds := by
  unfold Obligations.WheelStepBeginsAndEnds
  intro s w left
  have hdone : s.wheel.StepDone ↔ w.step ≠ none ∧ ¬ left := s.stepDone_iff
  refine ⟨exec_wheelStep_of_not, exec_wheelStep_of_behind, fun h => exec_stepEnd_of_not fun hd => ?_, fun hstep hleft => ?_⟩
  · obtain ⟨hstep, hleft⟩ := hdone.1 hd
    exact h.elim hstep hleft
  · rw [exec_stepEnd_of_done (hdone.2 ⟨hstep, hleft⟩)]
    refine ⟨fun hdevice hoverrun htime => ?_, fun hdevice hoverrun htime => ?_, fun h => ?_⟩
    · have hcaught : s.stepEnded.CaughtUp := ⟨by simp [State.stepEnded, hdevice], hoverrun, htime⟩
      exact congrArg _ ((State.caughtUpTest_of_caughtUp hcaught).trans (if_pos (State.ready_iff.2 hdevice)))
    · have hnot : s.host.device ≠ .failed ∧ s.host.device ≠ .ready := by rcases hdevice with h | h <;> simp [h]
      have hcaught : s.stepEnded.CaughtUp := ⟨hnot.1, hoverrun, htime⟩
      exact congrArg _ ((State.caughtUpTest_of_caughtUp hcaught).trans (if_neg (mt State.ready_iff.1 hnot.2)))
    · refine congrArg _ (State.caughtUpTest_of_not fun ⟨hdevice, hoverrun, htime⟩ => ?_)
      rcases h with h | h | h
      · exact hdevice h
      · exact absurd (hoverrun.symm.trans h) (by simp)
      · exact h htime

/-! ### The moves of a step -/

/-- R28, R30, R38: an ARMED entry is placed again by its unchanged deadline. -/
theorem State.replace_moved {k : Nat} {e : Entry} (he : s.entryAt k = some e) (harmed : e.phase = .armed) : s.Moved (s.replace k) k e e := by
  have hreplace : s.replace k = ((s.leavePlace k e).uncountTrip e).place k e := by
    simp [State.replace, he, State.uncountTrip, harmed]
  rw [hreplace]
  exact s.moved_of_place k e e

/-- R35: what the emptying of the L0 slot does to an entry. -/
theorem State.moveDue_eq {k : Nat} {e : Entry} {l : Location} (harmed : e.phase = .armed) (hl : e.location = some l) : s.moveDue k e =
    { s.setEntry k { e with phase := .due, location := some .dueQueue } with wheel := (s.wheel.remove k l).append k .dueQueue } := by
  simp only [State.moveDue, State.leavePlace, hl, harmed, reduceCtorEq, if_false]
  rfl

theorem exec_overflowSweep_of_not (h : s.wheel.sweepLeft = 0) : exec .overflowSweep s = .next s :=
  congrArg _ (if_neg (by simp [h]))

theorem exec_cascade_of_not (h : s.wheel.step = none ∨ 0 < s.wheel.sweepLeft ∨ s.wheel.cascadeLevel = none) : exec .cascade s = .next s := by
  have hexec : exec .cascade s = execCascade s := rfl
  rw [hexec, execCascade]
  split
  · rename_i hstep
    rw [(h.resolve_left hstep.1).resolve_left (by simp [hstep.2])]
  · rfl

theorem exec_l0Emptying_of_not (h : s.wheel.step = none ∨ 0 < s.wheel.sweepLeft ∨ s.wheel.cascadeLevel ≠ none ∨ s.wheel.emptyingSlot = []) :
    exec .l0Emptying s = .next s := by
  have hexec : exec .l0Emptying s = execL0Emptying s := rfl
  rw [hexec, execL0Emptying]
  split
  · rename_i hstep
    obtain ⟨hs, hsweep, hlevel⟩ := hstep
    rw [((h.resolve_left hs).resolve_left (by simp [hsweep])).resolve_left (by simp [hlevel])]
  · rfl

theorem exec_overflowSweep_of_head {k : Nat} {rest : List Nat} (h : 0 < s.wheel.sweepLeft) (hk : s.wheel.overflow = k :: rest) :
    exec .overflowSweep s = .next (s.replace k) := by
  have hexec : exec .overflowSweep s = execOverflowSweep s := rfl
  rw [hexec, execOverflowSweep, if_pos h, hk]

theorem exec_cascade_of_head {l : Fin 4} {k : Nat} {rest : List Nat} (hstep : s.wheel.step ≠ none) (hsweep : s.wheel.sweepLeft = 0)
    (hlevel : s.wheel.cascadeLevel = some l) (hk : s.wheelSlot l (Fin.ofNat 64 (s.wheel.time / 64 ^ l.val)) = k :: rest) :
    exec .cascade s = .next (s.replace k) := by
  have hexec : exec .cascade s = execCascade s := rfl
  have hslot : s.wheel.slots[l][digit l.val s.wheel.time] = k :: rest := hk
  rw [hexec, execCascade, if_pos ⟨hstep, hsweep⟩, hlevel]
  simp only [hslot]

theorem exec_l0Emptying_of_head {k : Nat} {rest : List Nat} {e : Entry} (hstep : s.wheel.step ≠ none) (hsweep : s.wheel.sweepLeft = 0)
    (hlevel : s.wheel.cascadeLevel = none) (hk : s.wheel.emptyingSlot = k :: rest) (he : s.entryAt k = some e) :
    exec .l0Emptying s = .next (s.moveDue k e) := by
  have hexec : exec .l0Emptying s = execL0Emptying s := rfl
  rw [hexec, execL0Emptying, if_pos ⟨hstep, hsweep, hlevel⟩, hk]
  simp only [he]

/-- Settles O50: each stage by what is left to move, and each move as a re-placement or as a move to the due queue. -/
theorem wheelStepMovesEntries : Obligations.WheelStepMovesEntries := by
  unfold Obligations.WheelStepMovesEntries
  refine ⟨fun s h => ⟨exec_overflowSweep_of_not (Wheel.sweepLeft_of_none h), exec_cascade_of_not (.inl h), exec_l0Emptying_of_not (.inl h)⟩, ?_⟩
  intro s p hstep spot holds
  have hsome : s.wheel.step ≠ none := by simp [hstep]
  have hleft : s.wheel.sweepLeft = p.sweepLeft := Wheel.sweepLeft_of_some hstep
  have hholds : ∀ l, s.wheel.cascadeLeft l = true ↔ holds l := s.cascadeLeft_iff
  have hslot : s.wheel.emptyingSlot = s.wheelSlot 0 (spot 0) := rfl
  rw [← hleft]
  refine ⟨fun hsweep => ⟨exec_cascade_of_not (.inr (.inl hsweep)), exec_l0Emptying_of_not (.inr (.inl hsweep)), ?_⟩,
    fun hsweep => ⟨exec_overflowSweep_of_not hsweep, fun l hl hlevel => ⟨?_, ?_⟩, fun hnone => ?_⟩⟩
  · exact fun k rest e hk he harmed _ => ⟨_, exec_overflowSweep_of_head hsweep hk, State.replace_moved he harmed⟩
  · exact exec_l0Emptying_of_not (.inr (.inr (.inl fun h => Wheel.cascadeLevel_eq_none.1 h l hl ((hholds l).2 hlevel))))
  · intro hhigher k rest e hk he harmed _
    have hcascade := Wheel.cascadeLevel_eq_some hl ((hholds l).2 hlevel) fun m hm => mt (hholds m).1 (hhigher m hm)
    exact ⟨_, exec_cascade_of_head hsome hsweep hcascade hk, State.replace_moved he harmed⟩
  · have hcascade : s.wheel.cascadeLevel = none := Wheel.cascadeLevel_eq_none.2 fun l hl => mt (hholds l).1 (hnone l hl)
    refine ⟨exec_cascade_of_not (.inr (.inr hcascade)), fun h => exec_l0Emptying_of_not (.inr (.inr (.inr (hslot.trans h)))), ?_⟩
    intro k rest e hk he harmed hlocation
    refine ⟨_, exec_l0Emptying_of_head hsome hsweep hcascade (hslot.trans hk) he, ?_⟩
    rw [State.moveDue_eq harmed hlocation]
    exact ⟨(State.rowAt_setEntry ..).trans (if_pos rfl), fun j hj => (State.rowAt_setEntry ..).trans (if_neg hj), rfl, rfl, rfl, rfl,
      ⟨rfl, rfl⟩, rfl, ⟨rfl, rfl, rfl, rfl, rfl, rfl, rfl, rfl, rfl⟩⟩

end Sys2Proof.Machine
end

section
/-! The tick event (R91): N, the lag test (R42), and the moderation delays that end (R162). -/

namespace Sys2Proof.Machine

variable {s t : State}

/-! ### The lag test -/

/-- R42: what the lag test does to the wheel and to the event set. -/
theorem State.lagTest_spec (s : State) :
    let lags := s.wheel.overrun = false ∧ Config.overrunLag < s.timebase.time - s.wheel.time
    s.lagTest.wheel = { s.wheel with overrun := decide (lags ∨ s.wheel.overrun = true) } ∧
      s.lagTest.poster.events = (if lags then s.raise .wheelOverrun .timingWheel .none else s).poster.events := by
  intro lags
  have hlags : (!s.wheel.overrun) = true ∧ Config.overrunLag < s.timebase.time - s.wheel.time ↔ lags := by simp [lags]
  unfold State.lagTest
  simp only [hlags]
  split
  · rename_i h
    exact ⟨by simp [h], rfl⟩
  · rename_i h
    exact ⟨by simp [h], rfl⟩

/-! ### Several messages in one claim -/

/-- R163: the interrupt message of a ring. -/
def State.messageOf (s : State) (c : Fin 8) : DmaRequest := .messageWrite c (s.cr c).messageAddress (s.cr c).messageData

/-- R163: what one message does to the ring records. -/
theorem State.cr_sendMessage (s : State) (c j : Fin 8) :
    (s.sendMessage c).cr j = if j = c then { s.cr c with unnotified := 0, delayCount := none } else s.cr j := by
  simp [State.sendMessage]

theorem State.sendMessage_messageOf (s : State) (c j : Fin 8) : (s.sendMessage c).messageOf j = s.messageOf j := by
  unfold State.messageOf
  rw [State.cr_sendMessage]
  split
  · rename_i h; rw [h]
  · rfl

/-- R162, R163: all that the messages of several rings do, sent one after another. -/
structure State.Sent (s t : State) (rings : List (Fin 8)) : Prop where
  host : t.host = { s.host with dma := s.host.dma ++ rings.map s.messageOf }
  sent : ∀ c ∈ rings, t.cr c = { s.cr c with unnotified := 0, delayCount := none }
  others : ∀ c, c ∉ rings → t.cr c = s.cr c
  events : t.poster.events = s.poster.events
  writes : t.poster.writes = s.poster.writes
  wheel : t.wheel = s.wheel

theorem State.sent_foldl (rings : List (Fin 8)) : ∀ s : State, s.Sent (rings.foldl State.sendMessage s) rings := by
  induction rings with
  | nil => exact fun s => ⟨by simp, by simp, fun _ _ => rfl, rfl, rfl, rfl⟩
  | cons c rest ih =>
    intro s
    obtain ⟨hhost, hsent, hothers, hevents, hwrites, hwheel⟩ := ih (s.sendMessage c)
    have hcr := s.cr_sendMessage c
    refine ⟨?_, fun j hj => ?_, fun j hj => ?_, hevents.trans (by simp), hwrites.trans (by simp), hwheel.trans (by simp)⟩
    · rw [List.foldl_cons, hhost, funext (s.sendMessage_messageOf c)]
      simp [State.sendMessage, State.messageOf]
    · by_cases hmem : j ∈ rest
      · rw [List.foldl_cons, hsent j hmem, hcr]
        split
        · rename_i h; rw [h]
        · rfl
      · obtain rfl : j = c := (List.mem_cons.1 hj).resolve_right hmem
        rw [List.foldl_cons, hothers j hmem, hcr, if_pos rfl]
    · rw [List.mem_cons, not_or] at hj
      rw [List.foldl_cons, hothers j hj.2, hcr, if_neg hj.1]

/-- Log 4: one claim acts on all its items, one after another, in an order that is left open. -/
theorem State.forEach_eq_foldl (s : State) (items : List Nat) (act : Nat → State → State) :
    ∃ (l : List Nat) (n : Nat), l.Perm items ∧ s.forEach items act = l.foldl (fun s k => act k s) { s with choices := n } := by
  unfold State.forEach
  split
  · exact ⟨items, s.choices, .refl _, rfl⟩
  · exact ⟨_, _, List.perm_insertionSort _ _, rfl⟩

/-! ### The tick event -/

/-- R91: the state of a tick event before its messages: N advanced, the lag test made, the tick counted in every running delay. -/
def State.tickCounted (s : State) : State :=
  let s := ({ s with timebase := { s.timebase with time := nextTime s.timebase.time } } : State).lagTest
  { s with poster := { s.poster with rings := s.poster.rings.map CompletionRing.countTick } }

theorem State.cr_tickCounted (s : State) (c : Fin 8) : s.tickCounted.cr c = (s.cr c).countTick := by
  simp [State.tickCounted, State.cr]

@[simp] theorem State.tickCounted_host (s : State) : s.tickCounted.host = s.host := by simp [State.tickCounted]

@[simp] theorem State.tickCounted_writes (s : State) : s.tickCounted.poster.writes = s.poster.writes := by simp [State.tickCounted]

/-- R162: the delay trigger. -/
theorem CompletionRing.delayDue_iff (r : CompletionRing) : r.delayDue = true ↔
    r.interrupts = true ∧ 0 < r.moderationDelay ∧ ∃ n, r.delayCount = some n ∧ r.moderationDelay ≤ n := by
  simp [CompletionRing.delayDue, Option.any_eq_true, and_assoc]

/-- R162: the messages of a tick event, each ring whose delay has ended once, in an order that is left open. -/
theorem State.tick_sent (s : State) : ∃ messages : List (Fin 8), messages.Nodup ∧
    (∀ c, c ∈ messages ↔ (s.cr c).countTick.delayDue = true) ∧ s.tickCounted.Sent s.tick messages := by
  obtain ⟨l, n, hperm, htick⟩ := s.tickCounted.forEach_eq_foldl s.tickCounted.delayDueRings (fun c s => s.sendMessage (Fin.ofNat 8 c))
  have hmap : s.tickCounted.delayDueRings.map (Fin.ofNat 8) = (List.finRange 8).filter (fun c => (s.tickCounted.cr c).delayDue) := by
    simp [State.delayDueRings, Function.comp_def]
  have hmessages : (l.map (Fin.ofNat 8)).Perm ((List.finRange 8).filter (fun c => (s.tickCounted.cr c).delayDue)) :=
    hmap ▸ hperm.map _
  refine ⟨l.map (Fin.ofNat 8), hmessages.nodup_iff.2 ((List.nodup_finRange 8).filter _), fun c => ?_, ?_⟩
  · rw [hmessages.mem_iff, List.mem_filter, State.cr_tickCounted]
    simp
  · have hfold : s.tick = (l.map (Fin.ofNat 8)).foldl State.sendMessage { s.tickCounted with choices := n } := by
      rw [List.foldl_map]; exact htick
    obtain ⟨hhost, hsent, hothers, hevents, hwrites, hwheel⟩ := State.sent_foldl (l.map (Fin.ofNat 8)) { s.tickCounted with choices := n }
    rw [hfold]
    exact ⟨hhost, hsent, hothers, hevents, hwrites, hwheel⟩

theorem exec_tickEvent_of_not (h : s.host.device ≠ .ready ∨ s.timebase.state ≠ .freeRunning) : exec .tickEvent s = .next s :=
  congrArg _ (if_neg fun ⟨hready, hfree⟩ => h.elim (· (State.ready_iff.1 hready)) (· hfree))

theorem exec_tickEvent_of_freeRunning (hready : s.host.device = .ready) (hfree : s.timebase.state = .freeRunning) :
    exec .tickEvent s = .next s.tick := congrArg _ (if_pos ⟨State.ready_iff.2 hready, hfree⟩)

/-- Settles O46: N and the lag test, and then the messages of the delays that end. -/
theorem tickAdvancesTime : Obligations.TickAdvancesTime := by
  unfold Obligations.TickAdvancesTime
  intro s now lags later message counted due t
  have hnow : nextTime s.timebase.time = now := Nat.min_comm _ _
  have hlag := later.lagTest_spec
  have hcounted : s.tickCounted.wheel = later.lagTest.wheel ∧ s.tickCounted.poster.events = later.lagTest.poster.events := by
    rw [State.tickCounted, hnow]; exact ⟨rfl, rfl⟩
  have hdue : ∀ c, (s.cr c).countTick.delayDue = true ↔ due c := fun c => (s.cr c).countTick.delayDue_iff
  obtain ⟨messages, hnodup, hmem, hhost, hsent, hothers, hevents, hwrites, hwheel⟩ := s.tick_sent
  have hmem' : ∀ c, c ∈ messages ↔ due c := fun c => (hmem c).trans (hdue c)
  refine ⟨exec_tickEvent_of_not, exec_tickEvent_of_freeRunning, messages, by simp [t, hnow], ?_, ?_, hnodup, hmem', ?_, fun c hc => ?_,
    fun c hc => ?_, by simp [t], by simp [t], by simp [t], by simp [t, hwrites], by simp [t]⟩
  · rw [hwheel, hcounted.1, hlag.1]; rfl
  · rw [hevents, hcounted.2, hlag.2]
    by_cases h : lags
    · exact congrArg (fun u : State => u.poster.events) ((if_pos h).trans (if_pos h).symm)
    · rw [if_neg h]
      exact Eq.trans (b := later.poster.events) (congrArg (fun u : State => u.poster.events) (if_neg h)) rfl
  · have hmessage : s.tickCounted.messageOf = message := funext fun c => by rw [State.messageOf, State.cr_tickCounted]; rfl
    rw [hhost, hmessage, State.tickCounted_host]
  · rw [hsent c ((hmem' c).2 hc), State.cr_tickCounted]; rfl
  · rw [hothers c (mt (hmem' c).1 hc), State.cr_tickCounted]; rfl

end Sys2Proof.Machine
end

section
/-! The take of the Expiry Unit (R48, R50): the discard (R51), the hold (R52), and the fires of the three kinds (R53 to R61). -/

namespace Sys2Proof.Machine

variable {s : State} {k : Nat} {e : Entry}

/-! ### The head of the due queue -/

theorem exec_take_of_not (h : s.host.device ≠ .ready ∨ s.wheel.dueQueue = []) : exec .take s = .next s := by
  have hexec : exec .take s = execTake s := rfl
  rw [hexec, execTake]
  split
  · rename_i hready
    rw [h.resolve_left fun hne => hne (State.ready_iff.1 hready)]
  · rfl

theorem exec_take_of_head {rest : List Nat} (hready : s.host.device = .ready) (hk : s.wheel.dueQueue = k :: rest)
    (he : s.entryAt k = some e) : exec .take s = .next (s.takeEntry k e) := by
  have hexec : exec .take s = execTake s := rfl
  rw [hexec, execTake, if_pos (State.ready_iff.2 hready), hk]
  simp only [he]

theorem State.takeEntry_of_destroying (h : (s.domain e.domain).state = .destroying) : s.takeEntry k e = s.discard k e := if_pos h

theorem State.takeEntry_of_paused (h : (s.domain e.domain).state ≠ .destroying) (hpause : 1 ≤ (s.domain e.domain).pauseDepth) :
    s.takeEntry k e = s.hold k e := (if_neg h).trans (if_pos hpause)

theorem State.takeEntry_of_running (h : (s.domain e.domain).state ≠ .destroying) (hpause : (s.domain e.domain).pauseDepth = 0) :
    s.takeEntry k e = s.fire k e := (if_neg h).trans (if_neg (by omega))

/-- R31: slot number `k` out of the due queue. -/
def State.withoutDue (s : State) (k : Nat) : State :=
  { s with wheel := { s.wheel with dueQueue := s.wheel.dueQueue.filter (· != k) } }

/-- R31: a DUE entry leaves the due queue, and no held list. -/
theorem State.leavePlace_of_due (hphase : e.phase = .due) (hlocation : e.location = some .dueQueue) :
    s.leavePlace k e = s.withoutDue k := by
  simp only [State.leavePlace, hlocation, hphase, reduceCtorEq, if_false]
  rfl

/-- R52: all that a hold of a DUE entry does. -/
theorem State.hold_spec (hphase : e.phase = .due) (hlocation : e.location = some .dueQueue) :
    (s.hold k e).rowAt k = { s.rowAt k with entry := some { e with phase := .held, location := none } } ∧ s.OnlyRow (s.hold k e) k ∧
      (s.hold k e).wheel = { s.wheel with dueQueue := s.wheel.dueQueue.filter (· != k) } ∧
      (s.hold k e).domain e.domain = { s.domain e.domain with held := (s.domain e.domain).held ++ [k] } ∧
      s.OnlyDomain (s.hold k e) e.domain := by
  unfold State.hold
  rw [State.leavePlace_of_due hphase hlocation]
  exact ⟨(State.rowAt_setEntry ..).trans (if_pos rfl), fun j hj => (State.rowAt_setEntry ..).trans (if_neg hj), rfl,
    (State.domain_updateDomain ..).trans (if_pos rfl), fun j hj => (State.domain_updateDomain ..).trans (if_neg hj)⟩

/-- Settles O51: the take's first two cases, a free counted in the destroy walk and a move to the held list. -/
theorem takeDiscardsOrHolds : Obligations.TakeDiscardsOrHolds := by
  unfold Obligations.TakeDiscardsOrHolds
  refine ⟨fun s => exec_take_of_not, fun s k rest e hready hk he hphase hlocation => ?_⟩
  rw [exec_take_of_head hready hk he]
  refine ⟨fun hdestroying => ?_, fun hdestroying hpause => ?_⟩
  · exact ⟨s.freeEntry k, State.freeEntry_freed he, congrArg _ (State.takeEntry_of_destroying hdestroying)⟩
  · obtain ⟨hrow, hrows, hwheel, hdomain, hdomains⟩ := State.hold_spec (s := s) (k := k) hphase hlocation
    exact ⟨s.hold k e, congrArg _ (State.takeEntry_of_paused hdestroying hpause), hrow, hrows, hwheel, hdomain, hdomains, by simp, by simp,
      by simp [State.SameReservation], by simp, by simp [State.OnlyTimers]⟩

/-! ### A fire, by the entry's kind -/

/-- R53: `u` is what a fire leaves of `s`, which the entry of slot `k` has left: the entry `e'`, the wheel and the fault-trip count. -/
def State.FireLeaves (s u : State) (k : Nat) (e' : Entry) (wheel : Wheel) (trips : Nat) : Prop :=
  u.rowAt k = { s.rowAt k with entry := some e' } ∧ u.wheel = wheel ∧ u.expiry = { faultTrips := trips }

theorem State.fireLeaves_setEntry (s : State) (k : Nat) (e : Entry) :
    s.FireLeaves (s.setEntry k e) k e s.wheel s.expiry.faultTrips := ⟨(State.rowAt_setEntry ..).trans (if_pos rfl), rfl, rfl⟩

/-- R54: a one-shot ends. -/
theorem State.fireKind_of_oneshot (hkind : e.kind = .oneshot) :
    s.FireLeaves (s.fireKind k e) k { e with phase := .fired, location := none } s.wheel s.expiry.faultTrips := by
  have hfire : s.fireKind k e = s.setEntry k { e with phase := .fired, location := none } := by simp [State.fireKind, hkind]
  rw [hfire]
  exact s.fireLeaves_setEntry k _

/-- R56, R57: a periodic entry ends with its last fire. -/
theorem State.fireKind_of_last (hkind : e.kind = .periodic) (hlast : e.lastFire s.wheel.time = true) :
    s.FireLeaves (s.fireKind k e) k { e with phase := .fired, location := none, fireLimit := none } s.wheel s.expiry.faultTrips := by
  have hfire : s.fireKind k e = s.setEntry k { e with phase := .fired, location := none, fireLimit := none } := by
    simp [State.fireKind, hkind, hlast]
  rw [hfire]
  exact s.fireLeaves_setEntry k _

/-- R55, R56: a periodic entry before it is placed again: its next deadline, and one fire fewer to its limit. -/
def Entry.reloaded (e : Entry) (w : Nat) : Entry :=
  { e with deadline := nextDeadline w e.deadline (e.period.getD 0), fireLimit := e.fireLimit.map (· - 1) }

/-- R55, R56: before its last fire a periodic entry is placed by its next deadline. -/
theorem State.fireKind_of_reload (hkind : e.kind = .periodic) (hlast : ¬ e.lastFire s.wheel.time = true) :
    s.FireLeaves (s.fireKind k e) k ((e.reloaded s.wheel.time).placedAt s.wheel.time)
      (s.wheel.append k (placement s.wheel.time (e.reloaded s.wheel.time).deadline)) s.expiry.faultTrips := by
  have hfire : s.fireKind k e = s.place k (e.reloaded s.wheel.time) := by simp [State.fireKind, Entry.reloaded, hkind, hlast]
  obtain ⟨hrow, -, hwheel⟩ := s.place_spec k (e.reloaded s.wheel.time)
  rw [hfire]
  exact ⟨hrow, hwheel, by simp⟩

/-- R58, R65: a guard trips, and is counted when it has the fault option. -/
theorem State.fireKind_of_guard (hkind : e.kind = .guard) :
    s.FireLeaves (s.fireKind k e) k { e with phase := .tripped, location := none } s.wheel
      (s.expiry.faultTrips + if e.faultOption then 1 else 0) := by
  have hfire : s.fireKind k e = (s.setEntry k { e with phase := .tripped, location := none }).countTrip e.faultOption := by
    simp [State.fireKind, hkind]
  rw [hfire]
  obtain ⟨hrow, -, -⟩ := s.fireLeaves_setEntry k { e with phase := .tripped, location := none }
  exact ⟨(State.rowAt_congr (by simp) k).trans hrow, by simp, State.countTrip_expiry _ _⟩

/-- R53: whatever the kind, a fire writes no row but its own. -/
theorem State.fireKind_onlyRow (s : State) (k : Nat) (e : Entry) : s.OnlyRow (s.fireKind k e) k := fun j hj => by
  rw [State.rowAt, (s.fireKind_rows k e).1, lookupRow_storeRow, if_neg hj, State.rowAt]

/-- R59, R60: the pending expiry that a fire leaves, with the limits of its counts. -/
theorem recordFire_eq (old : Option PendingExpiry) (kind : ExpiryKind) (deadline missed : Nat) (holdover : Bool) :
    recordFire old kind deadline missed holdover = match old with
      | none =>
        { kind := kind, fireCount := 1, missedCount := min (2 ^ 32 - 1) missed, latestDeadline := deadline, holdover := holdover }
      | some p =>
        { kind := p.kind, fireCount := min 65535 (p.fireCount + 1), missedCount := min (2 ^ 32 - 1) (p.missedCount + missed)
          latestDeadline := deadline, holdover := p.holdover || holdover } := by
  cases old <;> simp only [recordFire, saturate, Config.maxCount16, Config.maxCount32, Nat.min_comm]

/-- R56, R57: when a periodic entry's fire is its last. -/
theorem Entry.lastFire_iff (e : Entry) (w : Nat) : e.lastFire w = true ↔
    e.fireLimit = some 1 ∨ 2 ^ 64 - 1 < nextDeadline w e.deadline (e.period.getD 0) := by
  rw [Entry.lastFire, Bool.or_eq_true, beq_iff_eq, decide_eq_true_iff, Config.maxTick]

/-- R53, R62: a fire of a DUE entry, and the hand-over of a pending expiry that it created. -/
theorem State.fire_of_due (hphase : e.phase = .due) (hlocation : e.location = some .dueQueue) :
    let u := (s.withoutDue k).fireKind k (e.fired s.wheel.time (s.timebase.state == .holdover))
    s.fire k e = if e.pendingExpiry = none then u.handExpiry e.ring k else u := by
  simp only [State.fire, State.leavePlace_of_due hphase hlocation, Option.isNone_iff_eq_none]

/-- Settles O52: the take's third case, by the kind of the entry that fires. -/
theorem takeFires : Obligations.TakeFires := by
  unfold Obligations.TakeFires
  intro s k rest e hready hk he hphase hlocation hdestroying hpause period missed nextTime holdover recorded fired ended last without left
  have hcounted : e.fired s.wheel.time (s.timebase.state == .holdover) = fired := by
    rw [Entry.fired, recordFire_eq, saturate, Nat.min_comm]
    rfl
  have hnext : e.kind = .periodic → nextDeadline s.wheel.time e.deadline period = nextTime := fun hkind => by
    simp only [nextTime, missed, if_pos hkind, nextDeadline, missedPeriods]
  have hlast : e.kind = .periodic → (fired.lastFire s.wheel.time = true ↔ last) := fun hkind =>
    (fired.lastFire_iff s.wheel.time).trans (or_congr_right (iff_of_eq (congrArg (2 ^ 64 - 1 < ·) (hnext hkind))))
  refine ⟨(s.withoutDue k).fireKind k fired, ?_, fun hkind => State.fireKind_of_oneshot (e := fired) hkind,
    fun hkind h => State.fireKind_of_last (e := fired) hkind ((hlast hkind).2 h), fun hkind h => ?_,
    fun hkind => State.fireKind_of_guard (e := fired) hkind, (s.withoutDue k).fireKind_onlyRow k fired, by simp [State.withoutDue],
    by simp [State.withoutDue], by simp [State.withoutDue, State.SameReservation], by simp [State.withoutDue],
    by simp [State.withoutDue, State.OnlyTimers]⟩
  · rw [exec_take_of_head hready hk he, State.takeEntry_of_running hdestroying hpause, State.fire_of_due hphase hlocation, hcounted]
  · rw [← hnext hkind]
    exact State.fireKind_of_reload (s := s.withoutDue k) (e := fired) hkind (mt (hlast hkind).1 h)

end Sys2Proof.Machine
end

section
/-! The agreement of a domain record with its state (R72, R73, R83): the changes of one record, and the operations that keep it. -/

namespace Sys2Proof.Machine

variable {s t : State}

/-! ### One record -/

/-- R72, R73, R83: what it is for a record to agree with its state. -/
theorem Domain.legal_iff (d : Domain) : d.legal = true ↔
    d.pauseDepth ≤ Config.maxPauseDepth ∧ (d.pauseStart.isSome = true ↔ 1 ≤ d.pauseDepth) ∧
      (d.walk.isSome = true ↔ d.state = .destroying) ∧ (d.quota.isSome = true ↔ d.state ≠ .free) ∧
      (∀ q, d.quota = some q → 1 ≤ q ∧ q ≤ Config.tableSize) ∧ (d.state = .free ∨ d.state = .running → d.pauseDepth = 0) ∧
      (d.state = .paused → 1 ≤ d.pauseDepth) ∧ (d.busy ≠ .none → d.state = .paused) := by
  have beq_iff : ∀ b c : Bool, (b == c) = true ↔ (b = true ↔ c = true) := by decide
  obtain ⟨state, depth, quota, inUse, held, busy, start, walk⟩ := d
  simp only [Domain.legal, Bool.and_eq_true, beq_iff, decide_eq_true_eq, Option.all_eq_true]
  cases state <;> simp [and_assoc]

theorem Domain.reset_legal : Domain.reset.legal = true := by decide

/-- The counts and the held list of a record, and how far its walk has gone, are not what its state speaks of. -/
theorem Domain.legal_congr {a b : Domain} (hstate : b.state = a.state) (hdepth : b.pauseDepth = a.pauseDepth) (hquota : b.quota = a.quota)
    (hbusy : b.busy = a.busy) (hstart : b.pauseStart = a.pauseStart) (hwalk : b.walk.isSome = a.walk.isSome) : b.legal = a.legal := by
  simp only [Domain.legal, hstate, hdepth, hquota, hbusy, hstart, hwalk]

/-! ### The changes of one record -/

variable {d : Domain}

/-- R82: a record that is not busy is neither DESTROYING nor held by a transfer job. -/
theorem Domain.isBusy_eq_false : d.isBusy = false ↔ d.state ≠ .destroying ∧ d.busy = .none := by
  cases hb : d.busy <;> simp [Domain.isBusy, hb]

/-- R73, R77: a domain in use whose pause depth is above 0 is PAUSED, unless it is being destroyed. -/
theorem Domain.state_eq_paused (h : d.legal = true) (hused : d.state ≠ .free) (hidle : d.isBusy = false) (hdepth : d.pauseDepth ≠ 0) :
    d.state = .paused := by
  obtain ⟨-, -, -, -, -, hzero, -, -⟩ := d.legal_iff.1 h
  obtain ⟨hwalking, -⟩ := Domain.isBusy_eq_false.1 hidle
  cases hstate : d.state <;> simp_all

/-- R74, R126: a domain that is created. -/
theorem createdDomain_legal {quota : Nat} (hpos : 1 ≤ quota) (hle : quota ≤ Config.tableSize) : (createdDomain quota).legal = true := by
  simp [Domain.legal_iff, createdDomain, Domain.reset, hpos, hle]

/-- R85: the start of a destroy walk. -/
theorem Domain.legal_destroying (h : d.legal = true) (hused : d.state ≠ .free) (hidle : d.isBusy = false) (w : DestroyWalk) :
    ({ d with state := .destroying, walk := some w } : Domain).legal = true := by
  obtain ⟨hmax, hstart, -, hquota, hrange, -, -, -⟩ := d.legal_iff.1 h
  obtain ⟨-, hbusy⟩ := Domain.isBusy_eq_false.1 hidle
  exact (Domain.legal_iff _).2 ⟨hmax, hstart, by simp, by simp [hquota, hused], hrange, by simp, by simp, by simp [hbusy]⟩

/-- R77: a pause, below the limit of 4. -/
theorem Domain.paused_legal (h : d.legal = true) (hused : d.state ≠ .free) (hlimit : d.pauseDepth < Config.maxPauseDepth) (now : Nat) :
    (d.paused now).legal = true := by
  obtain ⟨-, hstart, hwalk, hquota, hrange, -, -, hbusy⟩ := d.legal_iff.1 h
  refine (Domain.legal_iff _).2 ⟨hlimit, ?_, ?_, ?_, hrange, ?_, fun _ => Nat.le_add_left 1 _, ?_⟩
  · by_cases hzero : d.pauseDepth = 0
    · simp [Domain.paused, hzero]
    · simp [Domain.paused, hzero, hstart, Nat.one_le_iff_ne_zero]
  -- RUNNING becomes PAUSED; PAUSED and DESTROYING stay.
  all_goals cases hstate : d.state <;> simp_all [Domain.paused]

/-- R81: the resume that ends a pause. -/
theorem Domain.legal_running (h : d.legal = true) (hused : d.state ≠ .free) (hidle : d.isBusy = false) :
    ({ d with pauseDepth := 0, state := .running, held := [], pauseStart := none } : Domain).legal = true := by
  obtain ⟨-, -, hwalk, hquota, hrange, -, -, -⟩ := d.legal_iff.1 h
  obtain ⟨hwalking, hbusy⟩ := Domain.isBusy_eq_false.1 hidle
  exact (Domain.legal_iff _).2
    ⟨Nat.zero_le _, by simp, by simpa [hwalking] using hwalk, by simp [hquota, hused], hrange, by simp, by simp, by simp [hbusy]⟩

/-- R80: a resume that does not end the pause. -/
theorem Domain.legal_resumed (h : d.legal = true) (hpaused : d.state = .paused) (hdepth : 1 < d.pauseDepth) :
    ({ d with pauseDepth := d.pauseDepth - 1 } : Domain).legal = true := by
  obtain ⟨hmax, hstart, hwalk, hquota, hrange, -, -, hbusy⟩ := d.legal_iff.1 h
  have hleft : 1 ≤ d.pauseDepth - 1 := Nat.le_sub_one_of_lt hdepth
  exact (Domain.legal_iff _).2 ⟨(Nat.sub_le _ _).trans hmax, ⟨fun _ => hleft, fun _ => hstart.2 hdepth.le⟩, hwalk, hquota, hrange,
    by simp [hpaused], fun _ => hleft, hbusy⟩

/-- R83: a transfer job takes a PAUSED domain, or lets a domain go. -/
theorem Domain.legal_busy (h : d.legal = true) {busy : TransferBusy} (hpaused : busy ≠ .none → d.state = .paused) :
    ({ d with busy := busy } : Domain).legal = true := by
  obtain ⟨hmax, hstart, hwalk, hquota, hrange, hzero, hdepth, -⟩ := d.legal_iff.1 h
  exact (Domain.legal_iff _).2 ⟨hmax, hstart, hwalk, hquota, hrange, hzero, hdepth, hpaused⟩

/-! ### Operations on the state -/

theorem State.DomainsLegal.of_eq (hs : s.DomainsLegal) (h : t.domains = s.domains) : t.DomainsLegal := fun d => by
  rw [State.domain_congr h]; exact hs d

/-- A change of one record that keeps it legal. -/
theorem State.DomainsLegal.of_onlyDomain (hs : s.DomainsLegal) {i : Fin 64} (hi : (s.domain i).legal = true → (t.domain i).legal = true)
    (hothers : s.OnlyDomain t i) : t.DomainsLegal := fun j => by
  by_cases hj : j = i
  · rw [hj]; exact hi (hs i)
  · rw [hothers j hj]; exact hs j

theorem State.DomainsLegal.updateDomain (hs : s.DomainsLegal) {i : Fin 64} {f : Domain → Domain}
    (hf : (s.domain i).legal = true → (f (s.domain i)).legal = true) : (s.updateDomain i f).DomainsLegal :=
  hs.of_onlyDomain (fun h => by rw [State.domain_updateDomain, if_pos rfl]; exact hf h) fun j hj => by
    rw [State.domain_updateDomain, if_neg hj]

/-- A change of counts, of the held list or of how far the walk has gone. -/
theorem State.DomainsLegal.tally (hs : s.DomainsLegal) {i : Fin 64} {f : Domain → Domain} (hf : (f (s.domain i)).legal = (s.domain i).legal) :
    (s.updateDomain i f).DomainsLegal := hs.updateDomain fun h => hf.trans h

/-- R90: the records of a reset or a disable. -/
theorem State.DomainsLegal.of_reset (h : t.domains = Vector.replicate 64 Domain.reset) : t.DomainsLegal := fun d => by
  rw [State.domain, h, Fin.getElem_fin, Vector.getElem_replicate]; exact Domain.reset_legal

theorem State.DomainsLegal.leavePlace (hs : s.DomainsLegal) (k : Nat) (e : Entry) : (s.leavePlace k e).DomainsLegal := by
  obtain ⟨-, hdomain, hothers⟩ := s.leavePlace_spec k e
  exact hs.of_onlyDomain (fun h => by rw [hdomain]; exact h) hothers

/-- R14, R15: of a domain record a free changes the in-use count and the held list only. -/
theorem State.freeEntry_domain (s : State) (k : Nat) (j : Fin 64) :
    ∃ (inUse : Nat) (held : List Nat), (s.freeEntry k).domain j = { s.domain j with inUse := inUse, held := held } := by
  cases he : s.entryAt k with
  | none => exact ⟨_, _, by rw [State.freeEntry, he]⟩
  | some e =>
    obtain ⟨-, -, -, -, -, hdomain, hothers, -⟩ := State.freeEntry_freed he
    by_cases hj : j = e.domain
    · rw [hj]; exact ⟨_, _, hdomain⟩
    · exact ⟨_, _, hothers j hj⟩

theorem State.DomainsLegal.freeEntry (hs : s.DomainsLegal) (k : Nat) : (s.freeEntry k).DomainsLegal := fun j => by
  obtain ⟨inUse, held, hfreed⟩ := s.freeEntry_domain k j
  rw [hfreed]; exact hs j

theorem State.DomainsLegal.freeAll (hs : s.DomainsLegal) (l : List Nat) : (s.freeAll l).DomainsLegal :=
  State.forEach_ind (Q := State.DomainsLegal) hs (fun _ h => h) fun k _ _ h => h.freeEntry k

theorem State.DomainsLegal.replace (hs : s.DomainsLegal) (k : Nat) : (s.replace k).DomainsLegal := by
  unfold State.replace
  split
  · exact hs
  · rename_i e _
    exact (hs.leavePlace k e).of_eq (by simp)

theorem State.DomainsLegal.moveDue (hs : s.DomainsLegal) (k : Nat) (e : Entry) : (s.moveDue k e).DomainsLegal :=
  (hs.leavePlace k e).of_eq rfl

theorem State.DomainsLegal.takeExpiry (hs : s.DomainsLegal) (c : Fin 8) (k : Nat) : (s.takeExpiry c k).DomainsLegal := by
  unfold State.takeExpiry
  split
  · exact hs
  · split
    · exact hs
    · dsimp only
      split
      · refine State.DomainsLegal.of_eq (State.DomainsLegal.freeEntry (hs.of_eq ?_) k) rfl
        simp
      · exact hs.of_eq (by simp)

theorem State.DomainsLegal.handExpiry (hs : s.DomainsLegal) (c : Fin 8) (k : Nat) : (s.handExpiry c k).DomainsLegal := by
  unfold State.handExpiry
  split
  · exact hs.takeExpiry c k
  · exact hs.of_eq rfl

/-- R50: the take of an entry: a discard, a hold or a fire. -/
theorem State.DomainsLegal.takeEntry (hs : s.DomainsLegal) (k : Nat) (e : Entry) : (s.takeEntry k e).DomainsLegal := by
  unfold State.takeEntry
  split
  · exact (hs.freeEntry k).tally (Domain.legal_congr rfl rfl rfl rfl rfl (by simp))
  · split
    · exact State.DomainsLegal.tally ((hs.leavePlace k e).of_eq rfl) rfl
    · unfold State.fire
      dsimp only
      split
      · exact State.DomainsLegal.handExpiry ((hs.leavePlace k e).of_eq (by simp)) _ k
      · exact (hs.leavePlace k e).of_eq (by simp)

/-- R18, R64: an entry restored from its mark counts as in use again. -/
theorem State.DomainsLegal.undoFree (hs : s.DomainsLegal) (k : Nat) (m : PostingMark) (p : Option PendingExpiry) :
    (s.undoFree k m p).DomainsLegal :=
  (hs.tally (i := m.entry.domain) (f := fun d => { d with inUse := d.inUse + 1 }) rfl).of_eq rfl

theorem State.DomainsLegal.restoreMarked (hs : s.DomainsLegal) (c : Fin 8) (i n k : Nat) (p : PendingExpiry) (m : PostingMark) :
    (s.restoreMarked c i n k p m).DomainsLegal := by
  unfold State.restoreMarked
  dsimp only
  split
  · exact hs.of_eq (by split <;> simp)
  · exact (hs.undoFree k m (if m.belongsTo c i n then m.entry.pendingExpiry else some p)).of_eq (by simp)

theorem State.DomainsLegal.restoreFires (hs : s.DomainsLegal) (c : Fin 8) (i n k g : Nat) (p : PendingExpiry) :
    (s.restoreFires c i n k g p).DomainsLegal := by
  unfold State.restoreFires
  split
  · split
    · exact hs.restoreMarked c i n k p _
    · exact hs
  · split
    · exact hs.of_eq (by split <;> simp)
    · exact hs

theorem State.DomainsLegal.writeFailed (hs : s.DomainsLegal) (q : DmaRequest) : (s.writeFailed q).DomainsLegal := by
  unfold State.writeFailed
  split
  · rename_i c _ _ _ _ _
    split
    · exact hs.of_eq (by simp)
    · have hfailed : (s.ringWriteFailed c).DomainsLegal := hs.of_eq (by simp)
      split
      · exact hfailed.restoreFires _ _ _ _ _ _
      · exact hfailed
      · exact hfailed
  · exact hs.of_eq (by split <;> simp)
  · exact hs

/-- R85, R88: the marks that name a domain go, and its record is changed by `f`. -/
theorem State.DomainsLegal.removeMarks (hs : s.DomainsLegal) (i : Fin 64) {f : Domain → Domain}
    (hf : (s.domain i).legal = true → (f (s.domain i)).legal = true) : ((s.removeMarks i).updateDomain i f).DomainsLegal :=
  State.DomainsLegal.updateDomain (s := s.removeMarks i) hs hf

/-! ### Transfer jobs -/

/-- R174: the end of a job lets its domain go. -/
theorem State.DomainsLegal.endJob (hs : s.DomainsLegal) (j : Job) (st : Status) (n : Nat) (w : DWord) : (s.endJob j st n w).DomainsLegal := by
  have hidle := hs.updateDomain (i := j.domain) (f := fun d => { d with busy := .none }) fun h => Domain.legal_busy h fun hne => absurd rfl hne
  exact hidle.of_eq (by simp [State.endJob])

/-- R185: a rollback frees entries and gives back what remains of the reservation. -/
theorem State.DomainsLegal.rollback (hs : s.DomainsLegal) (i : Fin 64) : (s.rollback i).DomainsLegal := by
  have hfreed := hs.freeAll ((s.entries.filter (fun p => p.2.importMark)).map Prod.fst)
  generalize hu : s.freeAll ((s.entries.filter (fun p => p.2.importMark)).map Prod.fst) = u at hfreed
  unfold State.rollback
  rw [hu]
  exact (hfreed.tally (f := fun d => { d with inUse := d.inUse - u.table.reservation }) rfl).of_eq rfl

theorem State.DomainsLegal.failJob (hs : s.DomainsLegal) (j : Job) (st : Status) : (s.failJob j st).DomainsLegal := by
  unfold State.failJob
  split
  case h_4 => exact (hs.rollback j.domain).endJob _ _ _ _
  all_goals exact hs.endJob _ _ _ _

/-- R83, R174: a job starts on a PAUSED domain. -/
theorem State.DomainsLegal.startJob (hs : s.DomainsLegal) (j : Job) (busy : TransferBusy) (hpaused : (s.domain j.domain).state = .paused) :
    (s.startJob j busy).DomainsLegal := by
  have hmarked := hs.updateDomain (f := fun d => { d with busy := busy }) fun h => Domain.legal_busy h fun _ => hpaused
  unfold State.startJob
  dsimp only
  split
  · exact hmarked.of_eq (by simp)
  · exact hmarked.of_eq rfl

/-- R182: the reservation of an import counts as in use. -/
theorem State.DomainsLegal.reserve (hs : s.DomainsLegal) (j : Job) : (s.reserve j).DomainsLegal := by
  have hcounted := hs.tally (i := j.domain) (f := fun d => { d with inUse := d.inUse + j.recordCount }) rfl
  unfold State.reserve
  exact hcounted.of_eq (by simp only [State.issue_frame, State.updateJob_frame]; rfl)

theorem State.DomainsLegal.jobWriteDone (hs : s.DomainsLegal) (j : Job) (item : TransferItem) : (s.jobWriteDone j item).DomainsLegal := by
  unfold State.jobWriteDone
  split
  · exact hs
  · exact hs.of_eq (by simp)
  · split
    · exact hs.of_eq (by simp)
    · exact hs.endJob _ _ _ _
  · exact hs.of_eq (by simp)

theorem State.DomainsLegal.jobReadDone (hs : s.DomainsLegal) (j : Job) (item : TransferItem) (data : RecordBits) :
    (s.jobReadDone j item data).DomainsLegal := by
  unfold State.jobReadDone
  split
  · unfold State.verifyHeader
    split
    · exact hs.of_eq (by simp)
    · exact hs.endJob _ _ _ _
  · exact hs.of_eq (by simp)
  · unfold State.verifyTrailer
    split
    · exact hs.endJob _ _ _ _
    · exact hs.reserve j
  · exact hs.of_eq (by simp)
  · unfold State.createRecord
    split
    · exact hs.of_eq (by dsimp only; split <;> simp)
    · exact hs.failJob _ _
  · unfold State.createTrailer
    split
    · exact State.DomainsLegal.endJob (hs.of_eq (by simp)) _ _ _ _
    · exact hs.failJob _ _
  · exact hs

/-- R183: where an imported entry is put, the held list of its domain at most changes. -/
theorem State.DomainsLegal.putImported (hs : s.DomainsLegal) (k phaseCode : Nat) (e : Entry) : (s.putImported k phaseCode e).DomainsLegal := by
  obtain ⟨-, -, -, hdomain, hothers, -⟩ := s.putImported_spec k phaseCode e
  exact hs.of_onlyDomain (fun h => by rw [hdomain]; exact h) hothers

theorem State.DomainsLegal.create (hs : s.DomainsLegal) (j : Job) (r : RecordBits) : (s.create j r).DomainsLegal := by
  unfold State.create
  exact State.DomainsLegal.of_eq (State.DomainsLegal.putImported (hs.of_eq (by simp)) _ _ _) rfl

end Sys2Proof.Machine
end

section
/-! The domain records under every command: each keeps them in agreement with their states (R72, R73, R83). -/

namespace Sys2Proof.Machine

variable {s t : State}

/-! ### Commands that the executor takes -/

theorem State.DomainsLegal.answer (hs : s.DomainsLegal) (k : Ticket) (r : Reply) : (s.answer k r).DomainsLegal := hs.of_eq (by simp)

theorem State.DomainsLegal.takeRecord (hs : s.DomainsLegal) : s.takeRecord.DomainsLegal := hs.of_eq (by simp)

/-- R106, R108: a command in hand keeps the records legal when its body does. -/
theorem domainsLegal_runCommand {k : CommandKind} {fieldsBad : CommandBits → Nat → Bool} {body : Taken → State → State} (hs : s.DomainsLegal)
    (hbody : ∀ (w : Taken) (u : State), u.DomainsLegal → fieldsBad w.record w.takenAt = false → (body w u).DomainsLegal) :
    (runCommand k fieldsBad body s).DomainsLegal :=
  runCommand_ind (Q := State.DomainsLegal) hs (fun _ _ _ => hs.takeRecord.answer _ _) fun w _ _ _ hf => hbody w _ hs.takeRecord hf

theorem domainsLegal_checked {k : CommandKind} {w : Taken} {checks : List (Bool × Status)} {effect : State → State × Reply}
    (hs : s.DomainsLegal) (heffect : (∀ p ∈ checks, p.1 = false) → (effect s).1.DomainsLegal) : (checked k w checks effect s).DomainsLegal :=
  checked_ind (Q := State.DomainsLegal) (fun p => hs.answer _ p) fun hc => (heffect hc).answer _ _

theorem domainsLegal_checkedJob {k : CommandKind} {w : Taken} {checks : List (Bool × Status)} {start : State → State}
    (hs : s.DomainsLegal) (hstart : (∀ p ∈ checks, p.1 = false) → (start s).DomainsLegal) : (checkedJob k w checks start s).DomainsLegal :=
  checkedJob_ind (Q := State.DomainsLegal) (fun p => hs.answer _ p) fun hc => (hstart hc).of_eq (by simp)

/-- R114: an allocated entry counts as in use. -/
theorem domainsLegal_armClaim (w : Taken) (hs : s.DomainsLegal) : (armClaim w s).DomainsLegal := by
  refine domainsLegal_checked hs fun _ => ?_
  have hcounted := hs.tally (i := recDomainFin w.record) (f := fun d => { d with inUse := d.inUse + 1 }) rfl
  exact hcounted.of_eq (by simp only [armEffect, State.place_frame]; rfl)

theorem domainsLegal_armBody (w : Taken) (u : State) (hu : u.DomainsLegal) : (armBody w u).DomainsLegal := by
  unfold armBody
  split
  · exact hu
  · exact domainsLegal_armClaim w hu

theorem domainsLegal_rearmBody (w : Taken) (u : State) (hu : u.DomainsLegal) : (rearmBody w u).DomainsLegal := by
  unfold rearmBody
  split
  · exact hu.answer _ _
  · rename_i e _
    exact domainsLegal_checked hu fun _ => (hu.leavePlace (handleSlot (recHandle w.record)) e).of_eq (by simp [rearmEffect])

theorem domainsLegal_cancelBody (w : Taken) (u : State) (hu : u.DomainsLegal) : (cancelBody w u).DomainsLegal := by
  unfold cancelBody
  split
  · exact hu.answer _ _
  · exact domainsLegal_checked hu fun _ => hu.freeEntry _

theorem domainsLegal_kickBody (w : Taken) (u : State) (hu : u.DomainsLegal) : (kickBody w u).DomainsLegal := by
  unfold kickBody
  split
  · exact hu.answer _ _
  · rename_i e _
    exact domainsLegal_checked hu fun _ => (hu.leavePlace (handleSlot (recHandle w.record)) e).of_eq (by simp [kickEffect])

/-- R126: the field check bounds the quota. -/
theorem domainsLegal_createBody (w : Taken) (u : State) (hu : u.DomainsLegal) (hf : createFieldsBad w.record = false) :
    (createBody w u).DomainsLegal := by
  simp only [createFieldsBad, Bool.or_eq_false_iff, decide_eq_false_iff_not, not_lt] at hf
  obtain ⟨⟨-, hpos⟩, hle⟩ := hf
  exact domainsLegal_checked hu fun _ => hu.updateDomain fun _ => createdDomain_legal hpos hle

/-- R127: either form of DESTROY DOMAIN finds a domain that is in use and not busy. -/
theorem domainsLegal_destroyBody (w : Taken) (u : State) (hu : u.DomainsLegal) : (destroyBody w u).DomainsLegal := by
  unfold destroyBody
  dsimp only
  split
  · refine domainsLegal_checkedJob hu fun hc => hu.removeMarks _ fun h => ?_
    simp only [List.forall_mem_cons, beq_eq_false_iff_ne] at hc
    obtain ⟨hused, hidle, -⟩ := hc
    exact Domain.legal_destroying h hused hidle _
  · exact domainsLegal_checked hu fun _ => hu.removeMarks _ fun _ => Domain.reset_legal

/-- R128: a pause finds a domain in use, and its depth below 4. -/
theorem domainsLegal_pauseBody (w : Taken) (u : State) (hu : u.DomainsLegal) : (pauseBody w u).DomainsLegal := by
  unfold pauseBody
  dsimp only
  refine domainsLegal_checked hu fun hc => hu.updateDomain fun h => ?_
  simp only [List.forall_mem_cons, beq_eq_false_iff_ne, decide_eq_false_iff_not, not_le] at hc
  obtain ⟨hused, hlimit, -⟩ := hc
  exact Domain.paused_legal h hused hlimit _

/-- R129: a resume finds a domain that is in use, not busy, and paused. -/
theorem domainsLegal_resumeBody (w : Taken) (u : State) (hu : u.DomainsLegal) : (resumeBody w u).DomainsLegal := by
  unfold resumeBody
  dsimp only
  refine domainsLegal_checked hu fun hc => ?_
  simp only [List.forall_mem_cons, beq_eq_false_iff_ne] at hc
  obtain ⟨hused, hidle, hdepth, -⟩ := hc
  unfold resumeEffect
  dsimp only
  split
  · refine State.DomainsLegal.updateDomain (hu.of_eq (by simp)) fun h => Domain.legal_running h ?_ ?_
    all_goals rwa [State.domain_congr (t := u.splice _) (s := u) (by simp)]
  · rename_i hone
    exact hu.updateDomain fun h => Domain.legal_resumed h (Domain.state_eq_paused h hused hidle hdepth) (by omega)

/-- R130, R131: a job that passes the first checks finds a PAUSED domain. -/
theorem domainsLegal_exportBody (w : Taken) (u : State) (hu : u.DomainsLegal) : (exportBody w u).DomainsLegal := by
  refine domainsLegal_checkedJob hu fun hc => ?_
  simp only [exportChecks, List.forall_mem_cons, beq_eq_false_iff_ne] at hc
  obtain ⟨hused, hidle, -, hdepth, -⟩ := hc
  exact hu.startJob _ _ (Domain.state_eq_paused (hu _) hused hidle hdepth)

theorem domainsLegal_importBody (w : Taken) (u : State) (hu : u.DomainsLegal) : (importBody w u).DomainsLegal := by
  refine domainsLegal_checkedJob hu fun hc => ?_
  simp only [importChecks, List.forall_mem_cons, beq_eq_false_iff_ne] at hc
  obtain ⟨hused, hidle, -, hdepth, -⟩ := hc
  exact hu.startJob _ _ (Domain.state_eq_paused (hu _) hused hidle hdepth)

theorem domainsLegal_abortBody (w : Taken) (u : State) (hu : u.DomainsLegal) : (abortBody w u).DomainsLegal := by
  unfold abortBody
  split
  · exact hu.answer _ _
  · split
    · exact (hu.failJob _ _).answer _ _
    · exact hu

/-- R13: the waiting ARM's claim. -/
theorem domainsLegal_allocation (hs : s.DomainsLegal) : ∀ {t}, execAllocation s = .next t → t.DomainsLegal := by
  rintro t ⟨⟩
  split
  · split
    · exact domainsLegal_armClaim _ hs
    · exact hs
  · exact hs
  · exact hs

theorem domainsLegal_closeSubmissionBody (w : Taken) (u : State) (hu : u.DomainsLegal) : (closeSubmissionBody w u).DomainsLegal := by
  unfold closeSubmissionBody
  dsimp only
  split
  · exact hu.answer _ _
  · exact hu.of_eq (by split <;> simp [State.closeSubmission])

theorem domainsLegal_restartBody (w : Taken) (u : State) (hu : u.DomainsLegal) : (restartBody w u).DomainsLegal :=
  domainsLegal_checked hu fun _ => hu.of_eq (by simp only [restartEffect]; split <;> simp)

/-! ### The register window, the disable and the destroy walk -/

theorem State.DomainsLegal.writeEnable1 (hs : s.DomainsLegal) : s.writeEnable1.DomainsLegal := by
  unfold State.writeEnable1
  split
  · exact hs
  · exact hs.of_eq (by dsimp only; split <;> simp)

theorem State.DomainsLegal.writeEnable0 (hs : s.DomainsLegal) : s.writeEnable0.DomainsLegal := by
  unfold State.writeEnable0
  split
  · exact hs.of_eq (by dsimp only; split <;> rfl)
  · exact hs

theorem State.DomainsLegal.writeRegister (hs : s.DomainsLegal) (offset : Nat) (v : Word) : (s.writeRegister offset v).DomainsLegal := by
  unfold State.writeRegister State.writeControl
  split
  · split
    · exact .of_reset (by simp)
    · split
      · exact hs.writeEnable1
      · exact hs.writeEnable0
  · split
    · exact hs.of_eq (by simp)
    · split
      · exact hs.of_eq (by simp)
      · exact hs.of_eq (by split <;> rfl)

theorem State.DomainsLegal.writeWords (l : List Word) :
    ∀ (offset : Nat) {s : State}, s.DomainsLegal → (State.writeWords offset l s).DomainsLegal := by
  induction l with
  | nil => exact fun _ _ hs => hs
  | cons v rest ih => exact fun offset _ hs => ih _ (hs.writeRegister offset v)

theorem domainsLegal_registerWrite (offset : Nat) (width : AccessWidth) (value : List Word) (hs : s.DomainsLegal) :
    ∀ {t}, execRegisterWrite offset width value s = .next t → t.DomainsLegal := by
  rintro t ⟨⟩
  split
  case h_4 => exact State.DomainsLegal.writeWords _ offset hs
  all_goals exact hs

theorem domainsLegal_disable (hs : s.DomainsLegal) : ∀ {t}, execDisable s = .next t → t.DomainsLegal := by
  rintro t ⟨⟩
  split
  · split
    · exact .of_reset (by simp [State.resetBlocks])
    · exact .of_reset rfl
  · exact hs

/-- R138, R139: an arbitration, with the take that may come before it. -/
theorem domainsLegal_arbitration (hs : s.DomainsLegal) : ∀ {t}, execArbitration s = .next t → t.DomainsLegal := by
  rintro t ⟨⟩
  have htake : s.takeAhead.DomainsLegal := by
    rcases s.takeAhead_spec with ⟨h, -⟩ | ⟨h, -⟩
    · rw [h]; exact hs.takeRecord
    · rw [h]; exact hs
  unfold State.holdArbitration
  split
  · exact htake.of_eq (by split <;> simp)
  · exact htake

/-- R86: a visit frees an entry or none, and the walk goes on. -/
theorem domainsLegal_destroyWalkVisit (i : Fin 64) (hs : s.DomainsLegal) : ∀ {t}, execDestroyWalkVisit i s = .next t → t.DomainsLegal := by
  rintro t ⟨⟩
  split
  · exact hs
  · rename_i w hwalk
    have advance : ∀ {u : State} {w' : DestroyWalk}, u.DomainsLegal → (u.domain i).walk = some w →
        (u.updateDomain i (fun d => { d with walk := some w' })).DomainsLegal :=
      fun hu hw => hu.tally (Domain.legal_congr rfl rfl rfl rfl rfl (by simp [hw]))
    split
    · split
      · obtain ⟨inUse, held, hfreed⟩ := s.freeEntry_domain w.position i
        exact advance (hs.freeEntry _) (by rw [hfreed]; exact hwalk)
      · exact advance hs hwalk
    · exact hs

theorem domainsLegal_destroyWalkEnd (i : Fin 64) (hs : s.DomainsLegal) : ∀ {t}, execDestroyWalkEnd i s = .next t → t.DomainsLegal := by
  rintro t ⟨⟩
  split
  · exact hs
  · split
    · exact (hs.removeMarks i (f := fun _ => Domain.reset) fun _ => Domain.reset_legal).of_eq (by simp)
    · exact hs

/-! ### The ends of transfers -/

theorem domainsLegal_transferWriteDone (hs : s.DomainsLegal) : ∀ {t}, execTransferWriteDone s = .next t → t.DomainsLegal := by
  rintro t ⟨⟩
  have hended : (s.endDma DmaRequest.isTransferWrite).DomainsLegal := hs.of_eq rfl
  split
  · dsimp only
    split
    · split
      · split
        · exact hended
        · exact hended.jobWriteDone _ _
      · exact hended.of_eq (by simp)
    · exact hended
  · exact hs

theorem domainsLegal_transferReadDone (data : RecordBits) (hs : s.DomainsLegal) :
    ∀ {t}, execTransferReadDone data s = .next t → t.DomainsLegal := by
  rintro t ⟨⟩
  have hended : (s.endDma DmaRequest.isTransferRead).DomainsLegal := hs.of_eq rfl
  split
  · dsimp only
    split
    · split
      · split
        · exact hended
        · exact hended.jobReadDone _ _ _
      · exact hended.of_eq (by simp)
    · exact hended
  · exact hs

theorem domainsLegal_transferBusError (hs : s.DomainsLegal) : ∀ {t}, execTransferBusError s = .next t → t.DomainsLegal := by
  rintro t ⟨⟩
  have hended : (s.endDma DmaRequest.ofTransfer).DomainsLegal := hs.of_eq rfl
  split
  · exact hs
  · dsimp only
    split
    · split
      · split
        · exact hended
        · exact hended.failJob _ _
      · exact hended.of_eq (by simp)
    · exact hended

/-! ### Every command -/

/-- Every command keeps every domain record in agreement with its state. -/
theorem exec_domainsLegal (c : Instr) (hs : s.DomainsLegal) (h : exec c s = .next t) : t.DomainsLegal := by
  have same : t.domains = s.domains → t.DomainsLegal := hs.of_eq
  cases c with
  | arm => cases h; exact domainsLegal_runCommand hs fun w u hu _ => domainsLegal_armBody w u hu
  | rearm => cases h; exact domainsLegal_runCommand hs fun w u hu _ => domainsLegal_rearmBody w u hu
  | cancel => cases h; exact domainsLegal_runCommand hs fun w u hu _ => domainsLegal_cancelBody w u hu
  | kick => cases h; exact domainsLegal_runCommand hs fun w u hu _ => domainsLegal_kickBody w u hu
  | query => cases h; exact domainsLegal_runCommand hs fun w u hu _ => hu.of_eq (by unfold queryBody; split <;> simp)
  | readStatus => cases h; exact domainsLegal_runCommand hs fun w u hu _ => hu.answer _ _
  | openSubmissionRing => cases h; exact domainsLegal_runCommand hs fun w u hu _ => domainsLegal_checked hu fun _ => hu
  | closeSubmissionRing => cases h; exact domainsLegal_runCommand hs fun w u hu _ => domainsLegal_closeSubmissionBody w u hu
  | openCompletionRing => cases h; exact domainsLegal_runCommand hs fun w u hu _ => domainsLegal_checked hu fun _ => hu
  | closeCompletionRing => cases h; exact domainsLegal_runCommand hs fun w u hu _ => domainsLegal_checked hu fun _ => hu
  | restartCompletionRing => cases h; exact domainsLegal_runCommand hs fun w u hu _ => domainsLegal_restartBody w u hu
  | setTimebase =>
    cases h
    exact domainsLegal_runCommand hs fun w u hu _ => domainsLegal_checked hu fun _ => hu.of_eq (by simp [setTimebaseEffect])
  | createDomain => cases h; exact domainsLegal_runCommand hs domainsLegal_createBody
  | destroyDomain => cases h; exact domainsLegal_runCommand hs fun w u hu _ => domainsLegal_destroyBody w u hu
  | pauseDomain => cases h; exact domainsLegal_runCommand hs fun w u hu _ => domainsLegal_pauseBody w u hu
  | resumeDomain => cases h; exact domainsLegal_runCommand hs fun w u hu _ => domainsLegal_resumeBody w u hu
  | exportDomain => cases h; exact domainsLegal_runCommand hs fun w u hu _ => domainsLegal_exportBody w u hu
  | importDomain => cases h; exact domainsLegal_runCommand hs fun w u hu _ => domainsLegal_importBody w u hu
  | abortTransfer => cases h; exact domainsLegal_runCommand hs fun w u hu _ => domainsLegal_abortBody w u hu
  | invalidKind =>
    cases h; split
    · exact hs
    · split
      · exact hs.takeRecord.answer _ _
      · exact hs
  | allocation => exact domainsLegal_allocation hs h
  | srTailWrite ring value => cases h; exact same (by simp)
  | crHeadWrite ring value => cases h; exact same (by simp)
  | enableSet => cases h; exact hs.writeEnable1
  | enableClear => cases h; exact hs.writeEnable0
  | deviceReset => cases h; exact .of_reset rfl
  | powerOnReset => cases h; exact .of_reset rfl
  | deviceTimeLowRead offset width =>
    cases h
    obtain ⟨latch, hr⟩ := s.readAccess_spec offset width
    exact same (by simp [hr])
  | registerWrite offset width value => exact domainsLegal_registerWrite offset width value hs h
  | disable => exact domainsLegal_disable hs h
  | arbitration => exact domainsLegal_arbitration hs h
  | recordArrival record =>
    cases h; refine same ?_; split
    · split <;> simp
    · rfl
  | readBusError =>
    cases h; refine same ?_; split
    · split
      · split <;> simp
      · simp
    · rfl
  | tickEvent => cases h; exact same (by split <;> simp)
  | refinEdge elapsed =>
    cases h; refine same ?_; split
    · split <;> simp
    · rfl
  | loss =>
    cases h; refine same ?_; split
    · dsimp only; split <;> simp
    · rfl
  | goodRun elapsed => cases h; exact same (by split <;> simp)
  | edgeEquivalent => cases h; exact same (by split <;> simp)
  | wheelStep => cases h; exact same (by split <;> rfl)
  | overflowSweep =>
    cases h; split
    · split
      · exact hs
      · exact hs.replace _
    · exact hs
  | cascade =>
    cases h; split
    · split
      · exact hs
      · split
        · exact hs
        · exact hs.replace _
    · exact hs
  | l0Emptying =>
    cases h; split
    · split
      · exact hs
      · split
        · exact hs
        · exact hs.moveDue _ _
    · exact hs
  | stepEnd => cases h; exact same (by split <;> simp)
  | take =>
    cases h; split
    · split
      · exact hs
      · split
        · exact hs
        · exact hs.takeEntry _ _
    · exact hs
  | drain ring =>
    cases h; split
    · split
      · exact hs
      · rename_i k _ _
        exact State.DomainsLegal.takeExpiry (s := s.updateCr ring (·.undefer k)) (hs.of_eq rfl) ring k
    · exact hs
  | eventPost =>
    cases h; refine same ?_; split
    · split <;> simp
    · rfl
  | countTrigger ring => cases h; exact same (by split <;> simp)
  | delayTrigger ring => cases h; exact same (by split <;> simp)
  | writeDone =>
    cases h; refine same ?_; split
    · rfl
    · dsimp only; split <;> simp
  | writeFailed =>
    cases h; split
    · exact hs
    · rename_i q _
      have hended : (s.endDma DmaRequest.ofPoster).DomainsLegal := hs.of_eq rfl
      dsimp only; split
      · exact hended.writeFailed q
      · exact hended
  | destroyWalkVisit domain => exact domainsLegal_destroyWalkVisit domain hs h
  | destroyWalkEnd domain => exact domainsLegal_destroyWalkEnd domain hs h
  | exportVisit =>
    cases h; refine same ?_; split
    · rfl
    · split <;> simp
  | transferWriteDone => exact domainsLegal_transferWriteDone hs h
  | exportRelease =>
    cases h; split
    · exact hs
    · split
      · exact (hs.freeAll _).endJob _ _ _ _
      · exact hs
  | transferReadDone data => exact domainsLegal_transferReadDone data hs h
  | importCreation =>
    cases h; split
    · exact hs
    · split
      · exact hs
      · split
        · split
          · exact hs.of_eq (by simp)
          · exact hs.create _ _
        · exact hs
  | transferBusError => exact domainsLegal_transferBusError hs h

/-- Settles O5: every change of a domain record keeps it in agreement with its state, and the pause depth at or below 4. -/
theorem domainsStayLegal : Obligations.DomainsStayLegal := by
  unfold Obligations.DomainsStayLegal
  exact fun s t => step_keeps (fun _ _ h => h) fun c s t hs h => exec_domainsLegal c hs h

end Sys2Proof.Machine
end

section
/-! The destroy walk: its visits (R86) and its end (R88), both in READY only (R191). -/

namespace Sys2Proof.Machine

variable {s : State} {dom : Fin 64} {w : DestroyWalk}

/-- R86, R191: outside READY, and without a walk, neither does anything. -/
theorem exec_destroyWalk_of_not (h : s.host.device ≠ .ready ∨ (s.domain dom).walk = none) :
    exec (.destroyWalkVisit dom) s = .next s ∧ exec (.destroyWalkEnd dom) s = .next s := by
  have hvisit : exec (.destroyWalkVisit dom) s = execDestroyWalkVisit dom s := rfl
  have hend : exec (.destroyWalkEnd dom) s = execDestroyWalkEnd dom s := rfl
  rw [hvisit, hend, execDestroyWalkVisit, execDestroyWalkEnd]
  cases hwalk : (s.domain dom).walk with
  | none => exact ⟨rfl, rfl⟩
  | some w =>
    have hready : ¬ s.ready = true := mt State.ready_iff.1 (h.resolve_right (by simp [hwalk]))
    exact ⟨congrArg _ (if_neg fun h => hready h.1), congrArg _ (if_neg fun h => hready h.1)⟩

/-- R86: a visit in READY, by whether a slot is left to visit and whether the slot at the walk's position holds an entry of the domain. -/
theorem exec_destroyWalkVisit_of_walk (hready : s.host.device = .ready) (hwalk : (s.domain dom).walk = some w) :
    exec (.destroyWalkVisit dom) s = .next (if w.position < Config.tableSize then
        if (s.entryAt w.position).any (fun e => e.domain == dom) then
          (s.freeEntry w.position).updateDomain dom (fun r => { r with
            walk := some { w with position := w.position + 1, walkCount := w.walkCount + 1 } })
        else s.updateDomain dom (fun r => { r with walk := some { w with position := w.position + 1 } })
      else s) := by
  have hexec : exec (.destroyWalkVisit dom) s = execDestroyWalkVisit dom s := rfl
  rw [hexec, execDestroyWalkVisit, hwalk]
  simp only [State.ready_iff.2 hready, true_and]

/-- R88: the end in READY, by whether a slot is left to visit. -/
theorem exec_destroyWalkEnd_of_walk (hready : s.host.device = .ready) (hwalk : (s.domain dom).walk = some w) :
    exec (.destroyWalkEnd dom) s = .next (if Config.tableSize ≤ w.position then
        ((s.removeMarks dom).updateDomain dom (fun _ => Domain.reset)).reply w.ticket
          { status := .success, count := BitVec.ofNat 32 (w.walkCount + w.discardCount) }
      else s) := by
  have hexec : exec (.destroyWalkEnd dom) s = execDestroyWalkEnd dom s := rfl
  rw [hexec, execDestroyWalkEnd, hwalk]
  simp only [State.ready_iff.2 hready, true_and]

/-- Settles O34: the two guards; a visit by what the slot at the walk's position holds; and the end past the last slot. -/
theorem destroyWalkVisitsAndEnds : Obligations.DestroyWalkVisitsAndEnds := by
  unfold Obligations.DestroyWalkVisitsAndEnds
  refine ⟨fun s dom => exec_destroyWalk_of_not, fun s dom w hready hwalk => ?_⟩
  rw [exec_destroyWalkVisit_of_walk hready hwalk, exec_destroyWalkEnd_of_walk hready hwalk, Config.tableSize]
  refine ⟨fun hleft => ⟨by rw [if_neg (Nat.not_le.2 hleft)], fun e he hdomain => ?_, fun hother => ?_⟩,
    fun hpast => ⟨by rw [if_neg (Nat.not_lt.2 hpast)], fun hcanonical => ?_⟩⟩
  · refine ⟨s.freeEntry w.position, State.freeEntry_freed he, ?_⟩
    rw [if_pos hleft, if_pos (by simp [he, hdomain])]
  · have hnone : ¬ (s.entryAt w.position).any (fun e => e.domain == dom) = true := by
      simpa [Option.any_eq_true] using hother
    rw [if_pos hleft, if_neg hnone]
  · rw [if_pos hpast]
    exact ⟨_, rfl, State.removeMarks_updateDomain hcanonical dom fun _ => Domain.reset⟩

end Sys2Proof.Machine
end

section
/-! The Timebase's own rules: what an edge, an edge equivalent and a loss make of it, and that each keeps source, divisor, nominal period and
counters in agreement with its state (R93 to R99). -/

namespace Sys2Proof.Machine

variable {s : State} {b : Timebase}

/-! ### Agreement with the state -/

/-- R93, R94, R97: the source, divisor, nominal period and measured ratio that a state calls for. -/
def Timebase.Sourced (b : Timebase) : TimebaseState → Prop
  | .stopped => b.source = .none ∧ b.divisor = none ∧ b.nominal = none
  | .freeRunning => b.source = .internal ∧ b.divisor.isSome = true ∧ b.nominal = none
  | .acquiring => b.source = .reference ∧ b.divisor.isSome = true ∧ b.nominal.isSome = true
  | .locked | .holdover => b.source = .reference ∧ b.divisor.isSome = true ∧ b.nominal.isSome = true ∧ b.measuredRatio.isSome = true

/-- What a legal Timebase is, part by part. -/
structure Timebase.Agrees (b : Timebase) : Prop where
  edgeCounter : b.edgeCounter < b.divisor.getD 1
  goodRunCount : b.goodRunCount < Config.goodRunLength
  divisor : ∀ n, b.divisor = some n → 1 ≤ n ∧ n ≤ 1048576
  nominal : ∀ n, b.nominal = some n → 32 ≤ n ∧ n < 2 ^ 32
  equivalentStart : b.equivalentStart.isSome = true ↔ b.state = .holdover
  sourced : b.Sourced b.state

theorem Timebase.legal_iff (b : Timebase) : b.legal = true ↔ b.Agrees := by
  have hequivalent : (b.equivalentStart.isSome == (b.state == .holdover)) = true ↔
      (b.equivalentStart.isSome = true ↔ b.state = .holdover) := by
    rw [beq_iff_eq, Bool.eq_iff_iff, beq_iff_eq]
  simp only [Timebase.legal, Bool.and_eq_true, hequivalent, decide_eq_true_eq, Option.all_eq_true]
  constructor
  · rintro ⟨⟨⟨⟨⟨hedge, hrun⟩, hdivisor⟩, hnominal⟩, hstart⟩, hsourced⟩
    refine ⟨hedge, hrun, hdivisor, hnominal, hstart, ?_⟩
    cases hstate : b.state <;> simpa [hstate, Timebase.Sourced, and_assoc] using hsourced
  · rintro ⟨hedge, hrun, hdivisor, hnominal, hstart, hsourced⟩
    refine ⟨⟨⟨⟨⟨hedge, hrun⟩, hdivisor⟩, hnominal⟩, hstart⟩, ?_⟩
    cases hstate : b.state <;> simpa [hstate, Timebase.Sourced, and_assoc] using hsourced

/-- R95, R96: the run, the last edge and the loss window have no part in the agreement but the good-run count's end. -/
theorem Timebase.Agrees.withRun (h : b.Agrees) {count : Nat} (hcount : count < Config.goodRunLength) (sum start : Nat) (last : Option Nat) :
    ({ b with goodRunCount := count, runLengthSum := sum, lastEdge := last, lossWindowStart := start } : Timebase).Agrees :=
  ⟨h.edgeCounter, hcount, h.divisor, h.nominal, h.equivalentStart, h.sourced⟩

/-- R97: a measured ratio may be set in every state. -/
theorem Timebase.Sourced.withRatio {state : TimebaseState} (h : b.Sourced state) (ratio : Nat) :
    ({ b with measuredRatio := some ratio } : Timebase).Sourced state := by
  cases state with
  | stopped | acquiring | freeRunning => exact h
  | locked | holdover => exact ⟨h.1, h.2.1, h.2.2.1, rfl⟩

theorem Timebase.Agrees.withRatio (h : b.Agrees) (ratio : Nat) : ({ b with measuredRatio := some ratio } : Timebase).Agrees :=
  ⟨h.edgeCounter, h.goodRunCount, h.divisor, h.nominal, h.equivalentStart, h.sourced.withRatio ratio⟩

/-- R94: the monitor is active in the three states whose ticks come from the reference. -/
theorem TimebaseState.monitors_iff {state : TimebaseState} : state.monitors = true ↔ state = .acquiring ∨ state = .locked ∨ state = .holdover := by
  cases state <;> simp [TimebaseState.monitors]

/-- R93, R94: a state in which the monitor is active has a reference, a divisor and a nominal period. -/
theorem Timebase.Agrees.of_monitors (h : b.Agrees) (hm : b.state.monitors = true) :
    b.source = .reference ∧ b.divisor.isSome = true ∧ b.nominal.isSome = true := by
  have hsourced := h.sourced
  rcases TimebaseState.monitors_iff.1 hm with hstate | hstate | hstate <;> rw [hstate] at hsourced
  · exact hsourced
  · obtain ⟨hsource, hdivisor, hnominal, -⟩ := hsourced
    exact ⟨hsource, hdivisor, hnominal⟩
  · obtain ⟨hsource, hdivisor, hnominal, -⟩ := hsourced
    exact ⟨hsource, hdivisor, hnominal⟩

/-- R97: a monitored Timebase with a measured ratio may enter LOCKED, with the edge counter at any value below the divisor. -/
theorem Timebase.Agrees.lock (h : b.Agrees) (hm : b.state.monitors = true) (hratio : b.measuredRatio.isSome = true) {n : Nat}
    (hn : n < b.divisor.getD 1) : ({ b with state := .locked, edgeCounter := n, equivalentStart := none } : Timebase).Agrees := by
  obtain ⟨hsource, hdivisor, hnominal⟩ := h.of_monitors hm
  exact ⟨hn, h.goodRunCount, h.divisor, h.nominal, by simp, hsource, hdivisor, hnominal, hratio⟩

/-- R96, R99: HOLDOVER is entered from LOCKED, with an edge equivalent in progress from any moment. -/
theorem Timebase.Agrees.beginHoldover (h : b.Agrees) (hstate : b.state = .locked) (start : Nat) :
    ({ b with state := .holdover, equivalentStart := some start } : Timebase).Agrees := by
  have hsourced := h.sourced
  rw [hstate] at hsourced
  exact ⟨h.edgeCounter, h.goodRunCount, h.divisor, h.nominal, by simp, hsourced⟩

/-- R99: in HOLDOVER the next edge equivalent may be reckoned from any moment. -/
theorem Timebase.Agrees.nextEquivalent (h : b.Agrees) (hstate : b.state = .holdover) (start : Nat) :
    ({ b with equivalentStart := some start } : Timebase).Agrees :=
  ⟨h.edgeCounter, h.goodRunCount, h.divisor, h.nominal, by simp [hstate], h.sourced⟩

/-! ### Counting edges -/

/-- R98, R99: what the count of one edge makes of the Timebase. -/
def Timebase.countEdge (b : Timebase) : Timebase :=
  if b.divisor.getD 0 ≤ b.edgeCounter + 1 then { b with edgeCounter := 0, time := nextTime b.time }
  else { b with edgeCounter := b.edgeCounter + 1 }

theorem State.timebase_countEdge (s : State) : s.countEdge.timebase = s.timebase.countEdge := by
  unfold State.countEdge Timebase.countEdge
  split
  · simp
  · rfl

theorem State.timebase_countEdges (n : Nat) : ∀ s : State, (State.countEdges n s).timebase = Timebase.countEdge^[n] s.timebase := by
  induction n with
  | zero => exact fun _ => rfl
  | succ n ih =>
    intro s
    rw [State.countEdges, ih, State.timebase_countEdge, Function.iterate_succ_apply]

/-- R98: counting `n` edges makes one tick event for each whole divisor, and leaves the rest in the edge counter. -/
theorem Timebase.countEdge_iterate {d : Nat} (n : Nat) : ∀ {b : Timebase}, b.divisor = some d → b.edgeCounter < d →
    Timebase.countEdge^[n] b =
      { b with edgeCounter := (b.edgeCounter + n) % d, time := nextTime^[(b.edgeCounter + n) / d] b.time } := by
  induction n with
  | zero => intro b _ hlt; simp [Nat.mod_eq_of_lt hlt, Nat.div_eq_of_lt hlt]
  | succ n ih =>
    intro b hd hlt
    rw [Function.iterate_succ_apply]
    by_cases hfull : d ≤ b.edgeCounter + 1
    · have hcount : b.countEdge = { b with edgeCounter := 0, time := nextTime b.time } := if_pos (by simpa [hd] using hfull)
      have hsum : b.edgeCounter + (n + 1) = n + d := by omega
      rw [hcount, ih (b := { b with edgeCounter := 0, time := nextTime b.time }) hd (Nat.zero_lt_of_lt hlt), hsum, Nat.add_mod_right,
        Nat.add_div_right _ (Nat.zero_lt_of_lt hlt)]
      simp
    · have hcount : b.countEdge = { b with edgeCounter := b.edgeCounter + 1 } := if_neg (by simpa [hd] using hfull)
      have hsum : b.edgeCounter + (n + 1) = b.edgeCounter + 1 + n := by omega
      rw [hcount, ih (b := { b with edgeCounter := b.edgeCounter + 1 }) hd (Nat.not_le.1 hfull), hsum]

theorem Timebase.Agrees.countEdges (h : b.Agrees) (hdivisor : b.divisor.isSome = true) (n : Nat) : (Timebase.countEdge^[n] b).Agrees := by
  obtain ⟨d, hd⟩ := Option.isSome_iff_exists.1 hdivisor
  have hlt : b.edgeCounter < d := by simpa [hd] using h.edgeCounter
  rw [Timebase.countEdge_iterate n hd hlt]
  refine ⟨?_, h.goodRunCount, h.divisor, h.nominal, h.equivalentStart, h.sourced⟩
  simpa [hd] using Nat.mod_lt _ (Nat.zero_lt_of_lt hlt)

/-! ### Edges and losses -/

theorem Timebase.judge_divisor (b : Timebase) (elapsed : Nat) : (b.judge elapsed).divisor = b.divisor := by
  unfold Timebase.judge; split
  · rfl
  · split <;> rfl

/-- R95, R97: what the monitor makes of an edge that completes no good run. -/
theorem Timebase.Agrees.judge (h : b.Agrees) {elapsed : Nat} (hrun : b.completesRun elapsed = false) :
    ((b.judge elapsed).seeEdge elapsed).Agrees := by
  unfold Timebase.judge
  cases hinterval : b.interval elapsed with
  | none => exact h.withRun h.goodRunCount _ _ _
  | some i =>
    dsimp only
    split
    · rename_i hwithin
      have hcount : b.goodRunCount + 1 < Config.goodRunLength := by
        simpa [Timebase.completesRun, hinterval, hwithin] using hrun
      exact h.withRun hcount _ _ _
    · exact h.withRun (Nat.zero_lt_of_lt h.goodRunCount) _ _ _

theorem Timebase.Agrees.completeRun (h : b.Agrees) (elapsed : Nat) : ((b.completeRun elapsed).seeEdge elapsed).Agrees :=
  (h.withRatio _).withRun (Nat.zero_lt_of_lt h.goodRunCount) _ _ _

theorem Timebase.Agrees.loseReference (h : b.Agrees) : b.loseReference.Agrees :=
  h.withRun (Nat.zero_lt_of_lt h.goodRunCount) _ _ _

theorem State.plainEdge_agrees (h : s.timebase.Agrees) {elapsed : Nat} (hm : s.timebase.state.monitors = true)
    (hrun : s.timebase.completesRun elapsed = false) : (s.plainEdge elapsed).timebase.Agrees := by
  have hjudged := h.judge hrun
  unfold State.plainEdge
  dsimp only
  split
  · rw [State.timebase_countEdge]
    have hdivisor : (s.timebase.judge elapsed).divisor.isSome = true := by
      rw [Timebase.judge_divisor]; exact (h.of_monitors hm).2.1
    exact hjudged.countEdges hdivisor 1
  · exact hjudged

theorem State.goodRunEvent_agrees (h : s.timebase.Agrees) (elapsed : Nat) : (s.goodRunEvent elapsed).timebase.Agrees := by
  have hcompleted := h.completeRun elapsed
  unfold State.goodRunEvent
  cases hstate : s.timebase.state with
  | acquiring => exact hcompleted.lock (TimebaseState.monitors_iff.2 (.inl hstate)) rfl (Nat.zero_lt_of_lt hcompleted.edgeCounter)
  | locked =>
    dsimp only
    rw [State.timebase_countEdge]
    exact hcompleted.countEdges (h.of_monitors (by rw [hstate]; rfl)).2.1 1
  | holdover => exact hcompleted.lock (TimebaseState.monitors_iff.2 (.inr (.inr hstate))) rfl hcompleted.edgeCounter
  | stopped | freeRunning => exact h

theorem execLoss_agrees (h : s.timebase.Agrees) : ∀ {t}, execLoss s = .next t → t.timebase.Agrees := by
  rintro t ⟨⟩
  split
  · rename_i hm
    dsimp only
    split
    · rename_i hlocked
      have hlost := h.loseReference.beginHoldover hlocked s.timebase.startAtLoss
      simp only [State.raise_frame, State.timebase_countEdges]
      exact hlost.countEdges (h.of_monitors hm.2).2.1 _
    · exact h.loseReference
  · exact h

theorem execEdgeEquivalent_agrees (h : s.timebase.Agrees) : ∀ {t}, execEdgeEquivalent s = .next t → t.timebase.Agrees := by
  rintro t ⟨⟩
  split
  · rename_i hstate
    have hnext := h.nextEquivalent hstate.2 s.timebase.equivalentEnd
    rw [State.timebase_countEdge]
    exact hnext.countEdges (h.of_monitors (by rw [hstate.2]; rfl)).2.1 1
  · exact h

end Sys2Proof.Machine
end

section
/-! The commands that leave the Timebase, and from it: every command keeps the Timebase in agreement with its state (R93 to R99). -/

namespace Sys2Proof.Machine

variable {s t : State}

/-! ### Commands that the executor takes -/

/-- R106, R108: a command in hand leaves the Timebase that its body leaves. -/
theorem timebase_runCommand {k : CommandKind} {fieldsBad : CommandBits → Nat → Bool} {body : Taken → State → State}
    (hbody : ∀ (w : Taken) (u : State), (body w u).timebase = u.timebase) : (runCommand k fieldsBad body s).timebase = s.timebase :=
  runCommand_ind (Q := fun u => u.timebase = s.timebase) rfl (fun _ _ _ => by simp) fun w _ _ _ _ => (hbody w _).trans (by simp)

theorem timebase_checked {k : CommandKind} {w : Taken} {checks : List (Bool × Status)} {effect : State → State × Reply}
    (heffect : (effect s).1.timebase = s.timebase) : (checked k w checks effect s).timebase = s.timebase :=
  checked_ind (Q := fun u => u.timebase = s.timebase) (fun _ => by simp) fun _ => by simpa using heffect

theorem timebase_checkedJob {k : CommandKind} {w : Taken} {checks : List (Bool × Status)} {start : State → State}
    (hstart : (start s).timebase = s.timebase) : (checkedJob k w checks start s).timebase = s.timebase :=
  checkedJob_ind (Q := fun u => u.timebase = s.timebase) (fun _ => by simp) fun _ => by simpa using hstart

theorem timebase_armClaim (w : Taken) (s : State) : (armClaim w s).timebase = s.timebase := timebase_checked (by simp [armEffect])

/-- Every command kind but SET TIMEBASE leaves the Timebase. -/
theorem exec_command_timebase (k : CommandKind) (hk : k ≠ .setTimebase) (h : exec k.command s = .next t) : t.timebase = s.timebase := by
  cases k with
  | setTimebase => exact absurd rfl hk
  | arm =>
    cases h; refine timebase_runCommand fun w u => ?_
    unfold armBody; split
    · rfl
    · exact timebase_armClaim w u
  | rearm =>
    cases h; refine timebase_runCommand fun w u => ?_
    unfold rearmBody; split
    · simp
    · exact timebase_checked (by simp [rearmEffect])
  | cancel =>
    cases h; refine timebase_runCommand fun w u => ?_
    unfold cancelBody; split
    · simp
    · exact timebase_checked (by simp [cancelEffect])
  | kick =>
    cases h; refine timebase_runCommand fun w u => ?_
    unfold kickBody; split
    · simp
    · exact timebase_checked (by simp [kickEffect])
  | query => cases h; exact timebase_runCommand fun w u => by unfold queryBody; split <;> simp
  | readStatus => cases h; exact timebase_runCommand fun w u => by simp [readStatusBody]
  | openSubmissionRing => cases h; exact timebase_runCommand fun _ _ => timebase_checked rfl
  | closeSubmissionRing =>
    cases h; refine timebase_runCommand fun w u => ?_
    unfold closeSubmissionBody; dsimp only; split
    · simp
    · split <;> simp [State.closeSubmission]
  | openCompletionRing => cases h; exact timebase_runCommand fun _ _ => timebase_checked rfl
  | closeCompletionRing => cases h; exact timebase_runCommand fun _ _ => timebase_checked rfl
  | restartCompletionRing =>
    cases h; exact timebase_runCommand fun _ _ => timebase_checked (by simp only [restartEffect]; split <;> simp)
  | createDomain => cases h; exact timebase_runCommand fun _ _ => timebase_checked rfl
  | destroyDomain =>
    cases h; refine timebase_runCommand fun w u => ?_
    unfold destroyBody; dsimp only; split
    · exact timebase_checkedJob rfl
    · exact timebase_checked rfl
  | pauseDomain => cases h; exact timebase_runCommand fun _ _ => timebase_checked rfl
  | resumeDomain =>
    cases h; exact timebase_runCommand fun _ _ => timebase_checked (by unfold resumeEffect; dsimp only; split <;> simp)
  | exportDomain => cases h; exact timebase_runCommand fun _ _ => timebase_checkedJob (by simp)
  | importDomain => cases h; exact timebase_runCommand fun _ _ => timebase_checkedJob (by simp)
  | abortTransfer =>
    cases h; refine timebase_runCommand fun w u => ?_
    unfold abortBody; split
    · simp
    · split <;> simp

/-! ### The other commands -/

/-- R138, R139: an arbitration, with the take that may come before it. -/
theorem timebase_arbitration : ∀ {t}, execArbitration s = .next t → t.timebase = s.timebase := by
  rintro t ⟨⟩
  have htake : s.takeAhead.timebase = s.timebase := by
    rcases s.takeAhead_spec with ⟨h, -⟩ | ⟨h, -⟩ <;> simp [h]
  refine Eq.trans ?_ htake
  unfold State.holdArbitration; split
  · split <;> simp
  · rfl

theorem State.timebase_writeEnable1 (s : State) : s.writeEnable1.timebase = s.timebase := by
  unfold State.writeEnable1; split
  · rfl
  · dsimp only; split <;> simp

theorem State.timebase_writeEnable0 (s : State) : s.writeEnable0.timebase = s.timebase := by
  unfold State.writeEnable0; split
  · dsimp only; split <;> rfl
  · rfl

/-- R91 to R105: the commands that may change the Timebase: its own events, the reads that fill its latch, and what may reset it. -/
def changesTimebase : Instr → Bool
  | .setTimebase | .deviceReset | .powerOnReset | .disable | .deviceTimeLowRead .. | .registerWrite .. => true
  | .tickEvent | .refinEdge _ | .loss | .goodRun _ | .edgeEquivalent => true
  | _ => false

theorem exec_timebase (c : Instr) (hc : changesTimebase c = false) (h : exec c s = .next t) : t.timebase = s.timebase := by
  cases c with
  | setTimebase | deviceReset | powerOnReset | disable | deviceTimeLowRead | registerWrite => cases hc
  | tickEvent | refinEdge | loss | goodRun | edgeEquivalent => cases hc
  | arm => exact exec_command_timebase .arm (by decide) h
  | rearm => exact exec_command_timebase .rearm (by decide) h
  | cancel => exact exec_command_timebase .cancel (by decide) h
  | kick => exact exec_command_timebase .kick (by decide) h
  | query => exact exec_command_timebase .query (by decide) h
  | readStatus => exact exec_command_timebase .readStatus (by decide) h
  | openSubmissionRing => exact exec_command_timebase .openSubmissionRing (by decide) h
  | closeSubmissionRing => exact exec_command_timebase .closeSubmissionRing (by decide) h
  | openCompletionRing => exact exec_command_timebase .openCompletionRing (by decide) h
  | closeCompletionRing => exact exec_command_timebase .closeCompletionRing (by decide) h
  | restartCompletionRing => exact exec_command_timebase .restartCompletionRing (by decide) h
  | createDomain => exact exec_command_timebase .createDomain (by decide) h
  | destroyDomain => exact exec_command_timebase .destroyDomain (by decide) h
  | pauseDomain => exact exec_command_timebase .pauseDomain (by decide) h
  | resumeDomain => exact exec_command_timebase .resumeDomain (by decide) h
  | exportDomain => exact exec_command_timebase .exportDomain (by decide) h
  | importDomain => exact exec_command_timebase .importDomain (by decide) h
  | abortTransfer => exact exec_command_timebase .abortTransfer (by decide) h
  | invalidKind =>
    cases h; split
    · rfl
    · split <;> simp
  | allocation =>
    cases h; split
    · split
      · exact timebase_armClaim _ _
      · rfl
    · rfl
    · rfl
  | srTailWrite ring value => cases h; simp
  | crHeadWrite ring value => cases h; simp
  | enableSet => cases h; exact s.timebase_writeEnable1
  | enableClear => cases h; exact s.timebase_writeEnable0
  | arbitration => exact timebase_arbitration h
  | recordArrival record =>
    cases h; split
    · split <;> simp
    · rfl
  | readBusError =>
    cases h; split
    · split
      · split <;> simp
      · simp
    · rfl
  | wheelStep => cases h; split <;> rfl
  | overflowSweep =>
    cases h; split
    · split <;> simp
    · rfl
  | cascade =>
    cases h; split
    · split
      · rfl
      · split <;> simp
    · rfl
  | l0Emptying =>
    cases h; split
    · split
      · rfl
      · split <;> simp
    · rfl
  | stepEnd => cases h; split <;> simp
  | take =>
    cases h; split
    · split
      · rfl
      · split <;> simp
    · rfl
  | drain ring =>
    cases h; split
    · split <;> simp
    · rfl
  | eventPost =>
    cases h; split
    · split <;> simp
    · rfl
  | countTrigger ring => cases h; split <;> simp
  | delayTrigger ring => cases h; split <;> simp
  | writeDone =>
    cases h; split
    · rfl
    · dsimp only; split <;> simp
  | writeFailed =>
    cases h; split
    · rfl
    · dsimp only; split <;> simp
  | destroyWalkVisit domain =>
    cases h; split
    · rfl
    · split
      · split <;> simp
      · rfl
  | destroyWalkEnd domain =>
    cases h; split
    · rfl
    · split <;> simp
  | exportVisit =>
    cases h; split
    · rfl
    · split <;> simp
  | transferWriteDone =>
    cases h; split
    · dsimp only; split
      · split
        · split <;> simp
        · simp
      · simp
    · rfl
  | exportRelease =>
    cases h; split
    · rfl
    · split <;> simp
  | transferReadDone data =>
    cases h; split
    · dsimp only; split
      · split
        · split <;> simp
        · simp
      · simp
    · rfl
  | importCreation =>
    cases h; split
    · rfl
    · split
      · rfl
      · split
        · split <;> simp
        · rfl
  | transferBusError =>
    cases h; split
    · rfl
    · dsimp only; split
      · split
        · split <;> simp
        · simp
      · simp

/-! ### Every command -/

/-- R105: a reset leaves a legal Timebase. -/
theorem Timebase.reset_agrees : Timebase.reset.Agrees := Timebase.reset.legal_iff.1 (by decide)

/-- R103: the latch has no part in the agreement. -/
theorem Timebase.Agrees.withLatch {b : Timebase} (h : b.Agrees) (latch : Word) : ({ b with latch := latch } : Timebase).Agrees :=
  ⟨h.edgeCounter, h.goodRunCount, h.divisor, h.nominal, h.equivalentStart, h.sourced⟩

/-- R91: nor has N. -/
theorem Timebase.Agrees.withTime {b : Timebase} (h : b.Agrees) (time : Nat) : ({ b with time := time } : Timebase).Agrees :=
  ⟨h.edgeCounter, h.goodRunCount, h.divisor, h.nominal, h.equivalentStart, h.sourced⟩

/-- R93, R102, R125: the field checks of a SET TIMEBASE bound the divisor and the nominal period that it sets. -/
theorem Timebase.setTo_agrees (b : Timebase) {r : CommandBits} (h : setTimebaseFieldsBad r = false) : (b.setTo r).Agrees := by
  have hfields := h
  rw [b.setTo_eq (tickSource_of_fields h)]
  simp only [setTimebaseFieldsBad, tickSource_of_fields h, Bool.or_eq_false_iff, decide_eq_false_iff_not, not_lt] at hfields
  obtain ⟨⟨hpos, hmax⟩, hnominal⟩ := hfields
  have hrun : 0 < Config.goodRunLength := by decide
  have hdivisor : ∀ n, some (recLengthA r) = some n → 1 ≤ n ∧ n ≤ 1048576 := by simpa using ⟨hpos, hmax⟩
  by_cases hinternal : recTimerKind r = 2#8
  · simp only [hinternal, if_true]
    exact ⟨hpos, hrun, hdivisor, by simp, by simp, rfl, rfl, rfl⟩
  · simp only [hinternal, if_false, decide_eq_false_iff_not, not_lt] at hnominal ⊢
    exact ⟨hpos, hrun, hdivisor, by simpa using ⟨hnominal, BitVec.isLt _⟩, by simp, rfl, rfl, rfl⟩

theorem execSetTimebase_agrees (h : s.timebase.Agrees) : ∀ {t}, execSetTimebase s = .next t → t.timebase.Agrees := by
  rintro t ⟨⟩
  refine runCommand_ind (Q := fun u => u.timebase.Agrees) h (fun _ _ _ => by simpa using h) fun w _ _ _ hf =>
    checked_ind (Q := fun u => u.timebase.Agrees) (fun _ => by simpa using h) fun _ => ?_
  simpa [setTimebaseEffect] using s.timebase.setTo_agrees hf

theorem State.writeRegister_agrees (h : s.timebase.Agrees) (offset : Nat) (v : Word) : (s.writeRegister offset v).timebase.Agrees := by
  unfold State.writeRegister State.writeControl
  split
  · split
    · exact Timebase.reset_agrees
    · split
      · rwa [State.timebase_writeEnable1]
      · rwa [State.timebase_writeEnable0]
  · split
    · simpa using h
    · split
      · simpa using h
      · split <;> exact h

theorem State.writeWords_agrees (l : List Word) :
    ∀ (offset : Nat) {s : State}, s.timebase.Agrees → (State.writeWords offset l s).timebase.Agrees := by
  induction l with
  | nil => exact fun _ _ h => h
  | cons v rest ih => exact fun offset _ h => ih _ (State.writeRegister_agrees h offset v)

theorem execRegisterWrite_agrees (offset : Nat) (width : AccessWidth) (value : List Word) (h : s.timebase.Agrees) :
    ∀ {t}, execRegisterWrite offset width value s = .next t → t.timebase.Agrees := by
  rintro t ⟨⟩
  split
  case h_4 => exact State.writeWords_agrees _ offset h
  all_goals exact h

theorem execDisable_agrees (h : s.timebase.Agrees) : ∀ {t}, execDisable s = .next t → t.timebase.Agrees := by
  rintro t ⟨⟩
  split
  · split
    · simpa [State.resetBlocks] using Timebase.reset_agrees
    · exact Timebase.reset_agrees
  · exact h

theorem execRefinEdge_agrees (elapsed : Nat) (h : s.timebase.Agrees) : ∀ {t}, execRefinEdge elapsed s = .next t → t.timebase.Agrees := by
  rintro t ⟨⟩
  split
  · rename_i hm
    split
    · exact State.goodRunEvent_agrees h elapsed
    · rename_i hrun
      exact State.plainEdge_agrees h hm.2 (by simpa using hrun)
  · exact h

theorem execGoodRun_agrees (elapsed : Nat) (h : s.timebase.Agrees) : ∀ {t}, execGoodRun elapsed s = .next t → t.timebase.Agrees := by
  rintro t ⟨⟩
  split
  · exact State.goodRunEvent_agrees h elapsed
  · exact h

/-- Every command keeps the Timebase in agreement with its state. -/
theorem exec_agrees (c : Instr) (hs : s.timebase.Agrees) (h : exec c s = .next t) : t.timebase.Agrees := by
  cases hc : changesTimebase c with
  | false => rwa [exec_timebase c hc h]
  | true =>
    cases c with
    | setTimebase => exact execSetTimebase_agrees hs h
    | deviceReset => cases h; exact Timebase.reset_agrees
    | powerOnReset => cases h; exact Timebase.reset_agrees
    | deviceTimeLowRead offset width =>
      cases h
      obtain ⟨latch, hr⟩ := s.readAccess_spec offset width
      simpa [hr] using hs.withLatch latch
    | registerWrite offset width value => exact execRegisterWrite_agrees offset width value hs h
    | disable => exact execDisable_agrees hs h
    | tickEvent =>
      cases h; split
      · simpa using hs.withTime _
      · exact hs
    | refinEdge elapsed => exact execRefinEdge_agrees elapsed hs h
    | loss => exact execLoss_agrees hs h
    | goodRun elapsed => exact execGoodRun_agrees elapsed hs h
    | edgeEquivalent => exact execEdgeEquivalent_agrees hs h
    | _ => cases hc

/-- Settles O7: the commands that are not the Timebase's leave it, and each that is keeps the agreement. -/
theorem timebaseStaysLegal : Obligations.TimebaseStaysLegal := by
  unfold Obligations.TimebaseStaysLegal State.TimebaseLegal
  simp only [Timebase.legal_iff]
  exact fun s t => step_keeps (Q := fun u => u.timebase.Agrees) (fun _ _ h => h) fun c s t hs h => exec_agrees c hs h

end Sys2Proof.Machine
end

section
/-! The edges of REFIN, judged and counted (R95, R97, R98), and the loss of the reference with the edge equivalents that follow it (R96, R99). -/

namespace Sys2Proof.Machine

variable {s : State} {elapsed : Nat}

/-! ### The judgement of an edge -/

theorem inTolerance_iff (nominal interval : Nat) :
    inTolerance nominal interval = true ↔ 7 * nominal ≤ 8 * interval ∧ 8 * interval ≤ 9 * nominal := by
  simp [inTolerance]

/-- R97: which edge completes a good run. -/
theorem Timebase.completesRun_iff (b : Timebase) (elapsed : Nat) : b.completesRun elapsed = true ↔
    ∃ last, b.lastEdge = some last ∧ (7 * b.nominal.getD 0 ≤ 8 * (b.lossWindowStart + elapsed - last) ∧
      8 * (b.lossWindowStart + elapsed - last) ≤ 9 * b.nominal.getD 0) ∧ 1024 ≤ b.goodRunCount + 1 := by
  cases hlast : b.lastEdge <;> simp [Timebase.completesRun, Timebase.interval, hlast, inTolerance_iff, Config.goodRunLength]

/-- R95: the first edge ends no interval. -/
theorem Timebase.judge_of_first {b : Timebase} (h : b.lastEdge = none) (elapsed : Nat) : b.judge elapsed = b := by
  simp [Timebase.judge, Timebase.interval, h]

/-- R95: the judgement of the interval that an edge ends. -/
theorem Timebase.judge_of_last {b : Timebase} {last : Nat} (h : b.lastEdge = some last) (elapsed : Nat) : b.judge elapsed =
    if 7 * b.nominal.getD 0 ≤ 8 * (b.lossWindowStart + elapsed - last) ∧ 8 * (b.lossWindowStart + elapsed - last) ≤ 9 * b.nominal.getD 0 then
      { b with goodRunCount := b.goodRunCount + 1, runLengthSum := b.runLengthSum + (b.lossWindowStart + elapsed - last) }
    else { b with goodRunCount := 0, runLengthSum := 0 } := by
  simp only [Timebase.judge, Timebase.interval, h, Option.map, inTolerance_iff]

/-- R95: the judged edge becomes the last edge, and the loss window starts again at it. -/
theorem Timebase.seeEdge_judge (b : Timebase) (elapsed : Nat) : (b.judge elapsed).seeEdge elapsed =
    { b.judge elapsed with lastEdge := some (b.lossWindowStart + elapsed), lossWindowStart := b.lossWindowStart + elapsed } := by
  have hwindow : (b.judge elapsed).lossWindowStart = b.lossWindowStart := by
    unfold Timebase.judge; split
    · rfl
    · split <;> rfl
  rw [Timebase.seeEdge, hwindow]

/-- R97: what the edge that completes a good run makes of the monitor. -/
theorem Timebase.completeRun_eq (b : Timebase) {last : Nat} (h : b.lastEdge = some last) (elapsed : Nat) :
    b.completeRun elapsed = { b with
      measuredRatio := some (b.runLengthSum + (b.lossWindowStart + elapsed - last)), goodRunCount := 0, runLengthSum := 0 } := by
  simp [Timebase.completeRun, Timebase.interval, h]

/-! ### Counting one edge -/

/-- R98: an edge that leaves the counter below the divisor. -/
theorem State.countEdge_of_lt (h : s.timebase.edgeCounter + 1 < s.timebase.divisor.getD 0) :
    s.countEdge = { s with timebase := { s.timebase with edgeCounter := s.timebase.edgeCounter + 1 } } := if_neg (Nat.not_le.2 h)

/-- R98: the edge that completes the divisor. -/
theorem State.countEdge_of_le (h : s.timebase.divisor.getD 0 ≤ s.timebase.edgeCounter + 1) :
    s.countEdge = State.tick { s with timebase := { s.timebase with edgeCounter := 0 } } := if_pos h

/-! ### The commands -/

/-- R95: outside READY, and where the monitor is not active, an edge is not seen. -/
theorem exec_edge_of_not (h : s.host.device ≠ .ready ∨ s.timebase.state.monitors = false) :
    exec (.refinEdge elapsed) s = .next s ∧ exec (.goodRun elapsed) s = .next s := by
  have hunseen : ¬ (s.ready = true ∧ s.timebase.state.monitors = true) := fun ⟨hready, hm⟩ =>
    h.elim (· (State.ready_iff.1 hready)) fun h => by simp [h] at hm
  exact ⟨congrArg _ (if_neg hunseen), congrArg _ (if_neg fun ⟨hready, hm, _⟩ => hunseen ⟨hready, hm⟩)⟩

/-- R95: an edge that completes no good run. -/
theorem exec_edge_of_plain (hready : s.host.device = .ready) (hm : s.timebase.state.monitors = true)
    (hrun : s.timebase.completesRun elapsed = false) :
    exec (.refinEdge elapsed) s = .next (s.plainEdge elapsed) ∧ exec (.goodRun elapsed) s = .next s := by
  refine ⟨congrArg _ ((if_pos ⟨State.ready_iff.2 hready, hm⟩).trans (if_neg (by simp [hrun]))), congrArg _ (if_neg fun h => ?_)⟩
  simp [hrun] at h

/-- R97, log 30: the edge that completes a good run, under either name. -/
theorem exec_edge_of_completing (hready : s.host.device = .ready) (hm : s.timebase.state.monitors = true)
    (hrun : s.timebase.completesRun elapsed = true) {i : Instr} (hi : i = .refinEdge elapsed ∨ i = .goodRun elapsed) :
    exec i s = .next (s.goodRunEvent elapsed) := by
  have hready' := State.ready_iff.2 hready
  rcases hi with rfl | rfl
  · exact congrArg _ ((if_pos ⟨hready', hm⟩).trans (if_pos hrun))
  · exact congrArg _ (if_pos ⟨hready', hm, hrun⟩)

/-- Settles O47: whether the edge is seen; the judgement of one that completes no good run; and by the state, the one that does. -/
theorem edgesAreJudgedAndCounted : Obligations.EdgesAreJudgedAndCounted := by
  unfold Obligations.EdgesAreJudgedAndCounted
  intro s elapsed b monitors now within completes judged completed counts
  have hmonitors : b.state.monitors = true ↔ monitors := TimebaseState.monitors_iff
  have hcompletes : b.completesRun elapsed = true ↔ completes := b.completesRun_iff elapsed
  have hjudged : (b.judge elapsed).seeEdge elapsed = judged := by
    rw [b.seeEdge_judge]
    cases hlast : b.lastEdge with
    | none => simp only [judged, hlast, now, Timebase.judge_of_first hlast]
    | some last => simp only [judged, hlast, within, now, Timebase.judge_of_last hlast]
  have hcounts : ∀ (i : Instr) (b' : Timebase), exec i s = .next (State.countEdge { s with timebase := b' }) → counts i b' :=
    fun i b' h => ⟨fun hlt => h.trans (congrArg _ (State.countEdge_of_lt hlt)), fun hle => h.trans (congrArg _ (State.countEdge_of_le hle))⟩
  refine ⟨fun h => exec_edge_of_not (h.imp_right fun h => Bool.eq_false_iff.2 (mt hmonitors.1 h)), fun hready hm hnot => ?_,
    fun hready hm hrun i hi => ?_⟩
  · obtain ⟨hplain, hgood⟩ := exec_edge_of_plain hready (hmonitors.2 hm) (Bool.eq_false_iff.2 (mt hcompletes.1 hnot))
    rw [State.plainEdge, hjudged] at hplain
    exact ⟨hgood, fun hstate => hplain.trans (congrArg _ (if_neg hstate)),
      fun hstate => hcounts _ _ (hplain.trans (congrArg _ (if_pos hstate)))⟩
  · have hexec := exec_edge_of_completing hready (hmonitors.2 hm) (hcompletes.2 hrun) hi
    have hcompleted : (b.completeRun elapsed).seeEdge elapsed = completed := by
      obtain ⟨last, hlast, -⟩ := hrun
      rw [b.completeRun_eq hlast, Timebase.seeEdge]
      simp [completed, now, hlast]
    rw [State.goodRunEvent, hcompleted] at hexec
    refine ⟨fun hstate => ?_, fun hstate => ?_, fun hstate => hcounts _ _ ?_⟩
    all_goals
      simp only [show s.timebase.state = _ from hstate] at hexec
      exact hexec

/-! ### The loss, and edge equivalents -/

/-- R91: N after `k` tick events. -/
theorem nextTime_iterate (n k : Nat) : nextTime^[k] n = if k = 0 then n else min (2 ^ 64 - 1) (n + k) := by
  induction k with
  | zero => rfl
  | succ k ih =>
    rw [Function.iterate_succ_apply', ih, if_neg (Nat.succ_ne_zero k)]
    simp only [nextTime, saturate, Config.maxTick]
    split <;> omega

/-- R96: outside READY, and where the monitor is not active, there is no loss. -/
theorem exec_loss_of_not (h : s.host.device ≠ .ready ∨ s.timebase.state.monitors = false) : exec .loss s = .next s :=
  congrArg _ (if_neg fun ⟨hready, hm⟩ => h.elim (· (State.ready_iff.1 hready)) fun h => by simp [h] at hm)

/-- R96: a loss outside LOCKED. -/
theorem exec_loss_of_monitors (hready : s.host.device = .ready) (hm : s.timebase.state.monitors = true) (hstate : s.timebase.state ≠ .locked) :
    exec .loss s = .next { s with timebase := s.timebase.loseReference } :=
  congrArg _ ((if_pos ⟨State.ready_iff.2 hready, hm⟩).trans (if_neg hstate))

/-- R96, R99: a loss in LOCKED, up to its counts and its event. -/
def Timebase.beginHoldover (b : Timebase) : Timebase :=
  { b.loseReference with state := .holdover, equivalentStart := some b.startAtLoss }

theorem exec_loss_of_locked (hready : s.host.device = .ready) (hstate : s.timebase.state = .locked) :
    exec .loss s = .next ((State.countEdges (s.timebase.lossLength / s.timebase.measuredRatio.getD 0)
      { s with timebase := s.timebase.beginHoldover }).raise .referenceLost .timebase .none) :=
  congrArg _ ((if_pos ⟨State.ready_iff.2 hready, by rw [hstate]; rfl⟩).trans (if_pos hstate))

theorem exec_edgeEquivalent_of_not (h : s.host.device ≠ .ready ∨ s.timebase.state ≠ .holdover) : exec .edgeEquivalent s = .next s :=
  congrArg _ (if_neg fun ⟨hready, hstate⟩ => h.elim (· (State.ready_iff.1 hready)) (· hstate))

/-- R99: an edge equivalent in HOLDOVER. -/
theorem exec_edgeEquivalent_of_holdover (hready : s.host.device = .ready) (hstate : s.timebase.state = .holdover) :
    exec .edgeEquivalent s = .next
      (State.countEdges 1 { s with timebase := { s.timebase with equivalentStart := some s.timebase.equivalentEnd } }) :=
  congrArg _ (if_pos ⟨State.ready_iff.2 hready, hstate⟩)

/-- R98: one more edge to count. -/
theorem State.countEdges_succ (n : Nat) (s : State) : State.countEdges (n + 1) s = State.countEdges n
    (if s.timebase.edgeCounter + 1 < s.timebase.divisor.getD 0 then
      { s with timebase := { s.timebase with edgeCounter := s.timebase.edgeCounter + 1 } }
     else State.tick { s with timebase := { s.timebase with edgeCounter := 0 } }) := by
  rw [State.countEdges]
  split
  · rename_i hlt
    rw [State.countEdge_of_lt hlt]
  · rename_i hle
    rw [State.countEdge_of_le (Nat.not_lt.1 hle)]

/-- R96, R98, R99: the counts of a loss in LOCKED: the edge counter and N by quotient and remainder of the divisor. -/
theorem State.countEdges_beginHoldover (h : s.timebase.Agrees) (hstate : s.timebase.state = .locked) (n : Nat) :
    let edges := s.timebase.edgeCounter + n
    let divisor := s.timebase.divisor.getD 1
    (State.countEdges n { s with timebase := s.timebase.beginHoldover }).timebase =
      { s.timebase.beginHoldover with
        edgeCounter := edges % divisor
        time := if edges / divisor = 0 then s.timebase.time else min (2 ^ 64 - 1) (s.timebase.time + edges / divisor) } := by
  intro edges divisor
  obtain ⟨-, hsome, -⟩ := h.of_monitors (by rw [hstate]; rfl)
  have hdivisor : s.timebase.divisor = some divisor := by
    obtain ⟨d, hd⟩ := Option.isSome_iff_exists.1 hsome
    simp [divisor, hd]
  have hcounted := Timebase.countEdge_iterate (b := s.timebase.beginHoldover) n hdivisor h.edgeCounter
  rw [State.timebase_countEdges, hcounted, nextTime_iterate]
  rfl

/-- Settles O48: the guards; the loss by the state; the edge equivalent; the moment it is reckoned from; and the counts. -/
theorem lossBeginsHoldover : Obligations.LossBeginsHoldover := by
  unfold Obligations.LossBeginsHoldover
  intro s b lost length ratio began inHoldover edges divisor
  refine ⟨fun h => ⟨exec_loss_of_not (.inl h), exec_edgeEquivalent_of_not (.inl h)⟩,
    fun hready => ⟨fun h => ?_, fun h => ?_, exec_loss_of_locked hready, fun h => exec_edgeEquivalent_of_not (.inr h), fun h start hstart => ?_⟩,
    ?_, ⟨rfl, fun n => State.countEdges_succ n s⟩,
    fun hlegal hstate => State.countEdges_beginHoldover (b.legal_iff.1 hlegal) hstate (length / ratio)⟩
  · exact exec_loss_of_not (.inr (by rcases h with h | h <;> exact congrArg TimebaseState.monitors h))
  · refine exec_loss_of_monitors hready (TimebaseState.monitors_iff.2 (h.imp_right .inr)) ?_
    rcases h with h | h <;> simp [show s.timebase.state = _ from h]
  · rw [exec_edgeEquivalent_of_holdover hready h, Timebase.equivalentEnd, show s.timebase.equivalentStart = some start from hstart]
    rfl
  · have hsplit : ratio * (length / ratio) + length % ratio = length := Nat.div_add_mod length ratio
    show 1024 * (b.lossWindowStart + 4 * b.nominal.getD 0) = 1024 * b.lossWindowStart + ratio * (length / ratio) + length % ratio
    omega

end Sys2Proof.Machine
end

section
/-! The 64-byte command record (section 11.3): the place of each field, the code of each kind (section 11.6), and which field values pass a
command's field checks (R108, check 3). -/

namespace Sys2Proof.Machine

variable {r : CommandBits} {now : Nat}

/-! ### Places of fields -/

/-- The bits of a field at its low end are a field of their own. -/
theorem extractLsb'_toNat_mod {w : Nat} (x : BitVec w) (start : Nat) {m n : Nat} (h : m ≤ n) :
    (x.extractLsb' start n).toNat % 2 ^ m = (x.extractLsb' start m).toNat := by
  simp only [BitVec.extractLsb'_toNat]
  exact Nat.mod_mod_of_dvd _ (Nat.pow_dvd_pow 2 h)

/-- The bits of a field above its low `k` are a field of their own. -/
theorem extractLsb'_toNat_div_mod {w : Nat} (x : BitVec w) (start k : Nat) {m n : Nat} (h : k + m ≤ n) :
    (x.extractLsb' start n).toNat / 2 ^ k % 2 ^ m = (x.extractLsb' (start + k) m).toNat := by
  have hn : n = k + (n - k) := by omega
  simp only [BitVec.extractLsb'_toNat, Nat.shiftRight_add]
  rw [hn, Nat.pow_add, Nat.mod_mul_right_div_self, ← Nat.shiftRight_eq_div_pow]
  exact Nat.mod_mod_of_dvd _ (Nat.pow_dvd_pow 2 (by omega))

/-- Section 11.3: a flag of a command record, by its bit in the flags field. -/
theorem recFlags_getLsbD (r : CommandBits) {i : Nat} (h : i < 16) : (recFlags r).getLsbD i = r.getLsbD (16 + i) := by
  simp [recFlags, fieldAt, h]

theorem recTimeMode_eq (r : CommandBits) : recTimeMode r = (r.extractLsb' 16 2).toNat := extractLsb'_toNat_mod r 16 (m := 2) (n := 16) (by decide)

theorem handleSlot_recHandle (r : CommandBits) : handleSlot (recHandle r) = (r.extractLsb' 96 16).toNat :=
  extractLsb'_toNat_mod r 96 (m := 16) (n := 32) (by decide)

theorem handleGeneration_recHandle (r : CommandBits) : handleGeneration (recHandle r) = (r.extractLsb' 112 8).toNat :=
  extractLsb'_toNat_div_mod r 96 16 (m := 8) (n := 32) (by decide)

/-! ### Kinds -/

theorem CommandKind.mem_commandKinds (k : CommandKind) : k ∈ commandKinds := by cases k <;> decide

/-- Section 11.6: no two kinds have one code. -/
theorem CommandKind.code_injective : Function.Injective CommandKind.code := fun k k' h =>
  List.inj_on_of_nodup_map (l := commandKinds) (by decide) k.mem_commandKinds k'.mem_commandKinds h

/-- R107: a record's kind is the one whose code its kind byte is. -/
theorem kindOf_eq_some {k : CommandKind} : kindOf r = some k ↔ k.code = recKind r := by
  constructor
  · intro h
    simpa using List.find?_some h
  · intro h
    cases hfind : kindOf r with
    | none => exact absurd (List.find?_eq_none.1 hfind k k.mem_commandKinds) (by simp [h])
    | some k' =>
      have hcode : k'.code = recKind r := by simpa using List.find?_some hfind
      rw [CommandKind.code_injective (hcode.trans h.symm)]

/-- R107: a kind by the number of its code. -/
theorem kindOf_eq_some_of_code {k : CommandKind} {n : Nat} (h : k.code.toNat = n) : kindOf r = some k ↔ (r.extractLsb' 0 8).toNat = n := by
  rw [kindOf_eq_some, ← h, eq_comm]
  exact BitVec.toNat_inj.symm

/-! ### Checks that several commands make -/

theorem badIoRing_eq_false (n : Nat) : badIoRing n = false ↔ 1 ≤ n ∧ n ≤ 7 := by
  simp only [badIoRing, Bool.or_eq_false_iff, decide_eq_false_iff_not, not_lt]

theorem badHandle_eq_false (h : Word) : badHandle h = false ↔ handleSlot h ≤ 16383 ∧ handleGeneration h ≠ 0 := by
  rw [badHandle, Bool.or_eq_false_iff, decide_eq_false_iff_not, beq_eq_false_iff_ne, not_le]
  exact and_congr_left' (Nat.lt_succ_iff (n := 16383))

/-- R112: the deadline of an ABSOLUTE time is a tick value as it stands; that of a RELATIVE one has to be. -/
theorem badTime_eq_false (r : CommandBits) (now : Nat) :
    badTime r now = false ↔ recTimeMode r ≤ 1 ∧ (recTimeMode r = 1 → now + recTime r ≤ 2 ^ 64 - 1) := by
  have htime : recTime r ≤ Config.maxTick := Nat.le_sub_one_of_lt (BitVec.isLt _)
  simp only [badTime, commandDeadline, Bool.or_eq_false_iff, decide_eq_false_iff_not, not_lt]
  refine and_congr_right fun _ => ?_
  by_cases h : recTimeMode r = 1
  · simp [h, Config.maxTick]
  · simp [h, htime]

/-- R4: the fields that fit each timer kind. -/
theorem misfit_eq_false (k : TimerKind) (period fireLimit : Nat) (fault : Bool) : misfit k period fireLimit fault = false ↔
    (k = .oneshot ∧ period = 0 ∧ fireLimit = 0 ∧ fault = false) ∨ (k = .periodic ∧ period ≠ 0 ∧ fault = false) ∨
      (k = .guard ∧ period ≠ 0 ∧ fireLimit = 0) := by
  cases k <;> simp [misfit, and_assoc]

/-- Section 11.6: a byte that is a code. -/
theorem byte_eq_ofNat {c : Byte} {n : Nat} (h : n < 256) : c = BitVec.ofNat 8 n ↔ c.toNat = n := by
  rw [← BitVec.toNat_inj, BitVec.toNat_ofNat, Nat.mod_eq_of_lt h]

/-- Section 11.6: the timer kind that a byte spells. -/
theorem TimerKind.ofCode_eq_some (c : Byte) (k : TimerKind) : TimerKind.ofCode c.toNat = some k ↔ c = BitVec.ofNat 8 k.code := by
  rw [byte_eq_ofNat (by cases k <;> decide), TimerKind.ofCode]
  cases k <;> simp only [TimerKind.code] <;> split_ifs <;> simp_all

/-- R113: the field checks of ARM. -/
theorem armFieldsBad_eq_false : armFieldsBad r now = false ↔
    recDomain r ≤ 63 ∧ recTimeMode r ≤ 1 ∧ (recTimeMode r = 1 → now + recTime r ≤ 2 ^ 64 - 1) ∧ 1 ≤ recPaired r ∧ recPaired r ≤ 7 ∧
      ((recTimerKind r = 0#8 ∧ recPeriod r = 0 ∧ recFireLimit r = 0 ∧ recFaultOption r = false) ∨
       (recTimerKind r = 1#8 ∧ recPeriod r ≠ 0 ∧ recFaultOption r = false) ∨
       (recTimerKind r = 2#8 ∧ recPeriod r ≠ 0 ∧ recFireLimit r = 0)) := by
  have hkind := TimerKind.ofCode_eq_some (recTimerKind r)
  have hone : recTimerKind r = 0#8 ↔ TimerKind.ofCode (recTimerKind r).toNat = some .oneshot := (hkind .oneshot).symm
  have hper : recTimerKind r = 1#8 ↔ TimerKind.ofCode (recTimerKind r).toNat = some .periodic := (hkind .periodic).symm
  have hguard : recTimerKind r = 2#8 ↔ TimerKind.ofCode (recTimerKind r).toNat = some .guard := (hkind .guard).symm
  simp only [armFieldsBad, Bool.or_eq_false_iff, decide_eq_false_iff_not, not_lt, badTime_eq_false, badIoRing_eq_false, and_assoc,
    hone, hper, hguard]
  cases TimerKind.ofCode (recTimerKind r).toNat with
  | none => simp
  | some k => simp [misfit_eq_false]

/-- R115: the field checks of REARM. -/
theorem rearmFieldsBad_eq_false : rearmFieldsBad r now = false ↔
    handleSlot (recHandle r) ≤ 16383 ∧ handleGeneration (recHandle r) ≠ 0 ∧ recTimeMode r ≤ 1 ∧
      (recTimeMode r = 1 → now + recTime r ≤ 2 ^ 64 - 1) := by
  rw [rearmFieldsBad, Bool.or_eq_false_iff, badHandle_eq_false, badTime_eq_false, and_assoc]

/-- R120: the field checks of OPEN SUBMISSION RING. -/
theorem openSubmissionFieldsBad_eq_false : openSubmissionFieldsBad r = false ↔
    1 ≤ recRing r ∧ recRing r ≤ 7 ∧ 64 ∣ (recAddressA r).toNat ∧ (∃ n, 4 ≤ n ∧ n ≤ 12 ∧ recLengthA r = 2 ^ n) ∧
      1 ≤ recPaired r ∧ recPaired r ≤ 7 ∧ 1 ≤ recWeight r ∧ recWeight r ≤ 16 := by
  simp only [openSubmissionFieldsBad, Bool.or_eq_false_iff, decide_eq_false_iff_not, not_lt, badIoRing_eq_false, misaligned_eq_false,
    badSize_eq_false, and_assoc]

/-- R122: the field checks of OPEN COMPLETION RING. -/
theorem openCompletionFieldsBad_eq_false : openCompletionFieldsBad r = false ↔
    1 ≤ recRing r ∧ recRing r ≤ 7 ∧ 64 ∣ (recAddressA r).toNat ∧ (∃ n, 4 ≤ n ∧ n ≤ 12 ∧ recLengthA r = 2 ^ n) ∧
      4 ∣ (recAddressB r).toNat ∧ 1 ≤ recModerationCount r ∧ recModerationDelay r ≤ 1023 := by
  simp only [openCompletionFieldsBad, Bool.or_eq_false_iff, decide_eq_false_iff_not, not_lt, badIoRing_eq_false, misaligned_eq_false,
    badSize_eq_false, and_assoc]

/-- R124: the field checks of RESTART COMPLETION RING. -/
theorem restartFieldsBad_eq_false : restartFieldsBad r = false ↔ recRing r ≤ 7 ∧ 64 ∣ (recAddressA r).toNat := by
  simp only [restartFieldsBad, Bool.or_eq_false_iff, decide_eq_false_iff_not, not_lt, misaligned_eq_false]

/-- Section 11.6: the tick source that a byte spells; NONE is spelt by none. -/
theorem TickSource.ofCode_eq_some (c : Byte) (k : TickSource) :
    TickSource.ofCode c.toNat = some k ↔ k ≠ .none ∧ c = BitVec.ofNat 8 k.code := by
  rw [byte_eq_ofNat (by cases k <;> decide), TickSource.ofCode]
  cases k <;> simp only [TickSource.code] <;> split_ifs <;> simp_all

/-- R93, R125: the field checks of SET TIMEBASE. -/
theorem setTimebaseFieldsBad_eq_false : setTimebaseFieldsBad r = false ↔
    1 ≤ recLengthA r ∧ recLengthA r ≤ 1048576 ∧ ((recTimerKind r = 1#8 ∧ 32 ≤ (recLengthB r).toNat) ∨ recTimerKind r = 2#8) := by
  have hsource := TickSource.ofCode_eq_some (recTimerKind r)
  have hreference : recTimerKind r = 1#8 ↔ TickSource.ofCode (recTimerKind r).toNat = some .reference := by simp [hsource, TickSource.code]
  have hinternal : recTimerKind r = 2#8 ↔ TickSource.ofCode (recTimerKind r).toNat = some .internal := by simp [hsource, TickSource.code]
  have hnone : TickSource.ofCode (recTimerKind r).toNat ≠ some .none := by simp [hsource]
  simp only [setTimebaseFieldsBad, Bool.or_eq_false_iff, decide_eq_false_iff_not, not_lt, and_assoc, hreference, hinternal]
  cases hcode : TickSource.ofCode (recTimerKind r).toNat with
  | none => simp
  | some k =>
    cases k with
    | none => exact absurd hcode hnone
    | reference => simp
    | internal => simp

/-- R130: the field checks of EXPORT DOMAIN. -/
theorem exportFieldsBad_eq_false : exportFieldsBad r = false ↔ recDomain r ≤ 63 ∧ 8 ∣ (recAddressA r).toNat := by
  simp only [exportFieldsBad, Bool.or_eq_false_iff, decide_eq_false_iff_not, not_lt, misaligned_eq_false]

/-- R131: the field checks of IMPORT DOMAIN. -/
theorem importFieldsBad_eq_false : importFieldsBad r = false ↔
    recDomain r ≤ 63 ∧ 8 ∣ (recAddressA r).toNat ∧ 40 ≤ recLengthA r ∧ 4 ∣ (recAddressB r).toNat := by
  simp only [importFieldsBad, Bool.or_eq_false_iff, decide_eq_false_iff_not, not_lt, misaligned_eq_false, and_assoc]

/-- R126: the field checks of CREATE DOMAIN. -/
theorem createFieldsBad_eq_false : createFieldsBad r = false ↔ recDomain r ≤ 63 ∧ 1 ≤ recLengthA r ∧ recLengthA r ≤ 16384 := by
  simp only [createFieldsBad, Bool.or_eq_false_iff, decide_eq_false_iff_not, not_lt, and_assoc]

/-- R127: the field check of the other domain commands. -/
theorem domainFieldsBad_eq_false : domainFieldsBad r = false ↔ recDomain r ≤ 63 := by
  simp only [domainFieldsBad, decide_eq_false_iff_not, not_lt]

/-- Section 11.6: the code of each kind. -/
theorem commandKinds_codes : commandKinds.map (fun k => (k, k.code.toNat)) =
    [(.arm, 0x01), (.rearm, 0x02), (.cancel, 0x03), (.kick, 0x04), (.query, 0x05), (.readStatus, 0x06), (.openSubmissionRing, 0x10),
      (.closeSubmissionRing, 0x11), (.openCompletionRing, 0x12), (.closeCompletionRing, 0x13), (.restartCompletionRing, 0x14),
      (.setTimebase, 0x18), (.createDomain, 0x20), (.destroyDomain, 0x21), (.pauseDomain, 0x22), (.resumeDomain, 0x23),
      (.exportDomain, 0x28), (.importDomain, 0x29), (.abortTransfer, 0x2A)] := by decide

/-- Settles O20: the places of the fields, the codes of the kinds, and the checks of each command. -/
theorem fieldChecksAsListed : Obligations.FieldChecksAsListed := by
  unfold Obligations.FieldChecksAsListed
  refine fun r now => ⟨⟨rfl, rfl, recTimeMode_eq r, recFlags_getLsbD r (by decide), recFlags_getLsbD r (by decide),
      recFlags_getLsbD r (by decide), recFlags_getLsbD r (by decide), rfl, rfl, rfl, rfl, rfl, rfl, rfl, handleSlot_recHandle r,
      handleGeneration_recHandle r, rfl, rfl, rfl, rfl, rfl, rfl, rfl, rfl, rfl⟩,
    fun p hp => ?_, armFieldsBad_eq_false, rearmFieldsBad_eq_false, openSubmissionFieldsBad_eq_false, openCompletionFieldsBad_eq_false,
    restartFieldsBad_eq_false, setTimebaseFieldsBad_eq_false, exportFieldsBad_eq_false, importFieldsBad_eq_false, badHandle_eq_false _,
    badIoRing_eq_false _, createFieldsBad_eq_false, domainFieldsBad_eq_false⟩
  rw [← commandKinds_codes, List.mem_map] at hp
  obtain ⟨k, -, rfl⟩ := hp
  exact kindOf_eq_some_of_code rfl

end Sys2Proof.Machine
end

section
/-! The register window (section 11.2): what each word reads, the reads that fill DEVICE_TIME's latch (R103), and the writes by offset and width
(R197, R198, R200). -/

namespace Sys2Proof.Machine

variable {s : State} {offset : Nat}

/-! ### Offsets -/

/-- Section 11.2: `offset` is no tail register's and no head register's. -/
def NoIndexRegister (offset : Nat) : Prop := ∀ i : Fin 8, offset ≠ 0x100 + 4 * i.val ∧ offset ≠ 0x140 + 4 * i.val

theorem NoIndexRegister.not_tail (h : NoIndexRegister offset) : ¬ (offset % 4 = 0 ∧ 0x100 ≤ offset ∧ offset < 0x120) := by
  rintro ⟨hword, hle, hlt⟩
  exact (h ⟨(offset - 0x100) / 4, by omega⟩).1 (by dsimp only; omega)

theorem NoIndexRegister.not_head (h : NoIndexRegister offset) : ¬ (offset % 4 = 0 ∧ 0x140 ≤ offset ∧ offset < 0x160) := by
  rintro ⟨hword, hle, hlt⟩
  exact (h ⟨(offset - 0x140) / 4, by omega⟩).2 (by dsimp only; omega)

/-- Section 11.2: the ring of the index register `4 · i` bytes above the first. -/
theorem ring_of_offset (base : Nat) (i : Fin 8) : Fin.ofNat 8 ((base + 4 * i.val - base) / 4) = i := by
  have hdiv : (base + 4 * i.val - base) / 4 = i.val := by omega
  rw [hdiv]
  exact Fin.ofNat_val_eq_self i

/-! ### What a word reads -/

/-- Section 11.2: the words below the index registers. -/
def namedWords : List Nat := [0x000, 0x004, 0x008, 0x010, 0x014, 0x018, 0x020, 0x024, 0x028, 0x030, 0x034, 0x038, 0x040, 0x044]

theorem State.readRegister_of_unnamed (h : offset ∉ namedWords) : s.readRegister offset =
    if offset % 4 ≠ 0 then 0#32
    else if 0x100 ≤ offset ∧ offset < 0x120 then BitVec.ofNat 32 (s.sr (Fin.ofNat 8 ((offset - 0x100) / 4))).tail
    else if 0x140 ≤ offset ∧ offset < 0x160 then BitVec.ofNat 32 (s.cr (Fin.ofNat 8 ((offset - 0x140) / 4))).head
    else 0#32 := by
  unfold State.readRegister
  split
  case h_15 => rfl
  all_goals exact absurd h (by decide)

theorem State.readRegister_tail (s : State) (i : Fin 8) : s.readRegister (0x100 + 4 * i.val) = BitVec.ofNat 32 (s.sr i).tail := by
  have hunnamed : 0x100 + 4 * i.val ∉ namedWords := by simp [namedWords]; omega
  rw [State.readRegister_of_unnamed hunnamed, if_neg (by omega), if_pos (by omega), ring_of_offset]

theorem State.readRegister_head (s : State) (i : Fin 8) : s.readRegister (0x140 + 4 * i.val) = BitVec.ofNat 32 (s.cr i).head := by
  have hunnamed : 0x140 + 4 * i.val ∉ namedWords := by simp [namedWords]; omega
  rw [State.readRegister_of_unnamed hunnamed, if_neg (by omega), if_neg (by omega), if_pos (by omega), ring_of_offset]

/-- R197: an offset that names no register reads as 0. -/
theorem State.readRegister_eq_zero (h : offset ∉ namedWords) (h' : NoIndexRegister offset) : s.readRegister offset = 0#32 := by
  rw [State.readRegister_of_unnamed h]
  split
  · rfl
  · rename_i hword
    have hword : offset % 4 = 0 := not_not.1 hword
    rw [if_neg fun hr => h'.not_tail ⟨hword, hr⟩, if_neg fun hr => h'.not_head ⟨hword, hr⟩]

/-- The middle one of three bit strings. -/
theorem extractLsb'_append_middle {a b c : Nat} (x : BitVec a) (y : BitVec b) (z : BitVec c) : (x ++ y ++ z).extractLsb' c b = y := by
  ext i hi
  simp [BitVec.getLsbD_append, hi]

/-- The highest one of three bit strings. -/
theorem extractLsb'_append_highest {a b c : Nat} (x : BitVec a) (y : BitVec b) (z : BitVec c) : (x ++ y ++ z).extractLsb' (b + c) a = x := by
  ext i hi
  simp [BitVec.getLsbD_append, hi, Nat.add_comm b c, Nat.add_assoc]

/-- R199: the three parts of IDENTITY. -/
theorem identityWord_parts : identityWord.extractLsb' 0 16 = Config.partNumber ∧ identityWord.extractLsb' 16 8 = Config.siliconRevision ∧
    identityWord.extractLsb' 24 8 = Config.vendorCode :=
  ⟨BitVec.extractLsb'_append_eq_right, extractLsb'_append_middle _ _ _, extractLsb'_append_highest _ _ _⟩

/-- R197: a 64-bit register is its two words. -/
theorem highWord_append_lowWord (x : DWord) : highWord x ++ lowWord x = x :=
  (BitVec.extractLsb'_append_extractLsb'_eq_extractLsb' rfl).trans BitVec.extractLsb'_eq_self

theorem highWord_lowWord_toNat {n : Nat} (h : n ≤ 2 ^ 64 - 1) :
    (highWord (BitVec.ofNat 64 n)).toNat * 2 ^ 32 + (lowWord (BitVec.ofNat 64 n)).toNat = n := by
  simp only [highWord, lowWord, BitVec.extractLsb'_toNat, BitVec.toNat_ofNat, Nat.shiftRight_eq_div_pow]
  omega

/-! ### The latch -/

/-- R103: `s` with the latch filled from N. -/
def State.latched (s : State) : State := { s with timebase := { s.timebase with latch := highWord s.deviceTime } }

theorem State.readWord_low (s : State) : s.readWord 0x040 = (lowWord s.deviceTime, s.latched) := rfl

theorem State.readWord_of_ne (h : offset ≠ 0x040) : s.readWord offset = (s.readRegister offset, s) := by
  rw [State.readWord, if_neg h]

/-- R103: the latch is read at its own word only. -/
theorem State.readRegister_latched (s : State) (offset : Nat) :
    s.latched.readRegister offset = if offset = 0x044 then highWord s.deviceTime else s.readRegister offset := by
  by_cases h : offset ∈ namedWords
  · simp only [namedWords, List.mem_cons, List.not_mem_nil, or_false] at h
    rcases h with rfl | rfl | rfl | rfl | rfl | rfl | rfl | rfl | rfl | rfl | rfl | rfl | rfl | rfl <;> rfl
  · have hne : offset ≠ 0x044 := fun he => h (by rw [he]; decide)
    rw [if_neg hne, State.readRegister_of_unnamed h, State.readRegister_of_unnamed h]
    rfl

/-- R197: what `n + 1` words in ascending address order are read as: the first, and the `n` after it. -/
theorem map_range_words {α : Type} (f : Nat → α) (offset n : Nat) : (List.range (n + 1)).map (fun i => f (offset + 4 * i)) =
    f offset :: (List.range n).map (fun i => f (offset + 4 + 4 * i)) := by
  rw [List.range_succ_eq_map, List.map_cons, List.map_map]
  refine congrArg _ (List.map_congr_left fun i _ => congrArg f ?_)
  rw [Nat.succ_eq_add_one]
  omega

/-- R197: words read past DEVICE_TIME's low word, one after another, are those of one state. -/
theorem State.readWords_of_above (s : State) (n : Nat) : ∀ offset, 0x040 < offset →
    State.readWords offset n s = ((List.range n).map (fun i => s.readRegister (offset + 4 * i)), s) := by
  induction n with
  | zero => exact fun _ _ => rfl
  | succ n ih =>
    intro offset h
    rw [State.readWords, State.readWord_of_ne h.ne', map_range_words]
    dsimp only
    rw [ih (offset + 4) (by omega)]

/-- R103, R197: words read across DEVICE_TIME's low word: the latch is filled there, and every word reads as it does with the latch filled, since
the latch's own word comes after. -/
theorem State.readWords_across (s : State) (after before : Nat) : ∀ offset, offset + 4 * before = 0x040 →
    State.readWords offset (before + (after + 1)) s =
      ((List.range (before + (after + 1))).map (fun i => s.latched.readRegister (offset + 4 * i)), s.latched) := by
  induction before with
  | zero =>
    intro offset h
    obtain rfl : offset = 0x040 := h
    rw [Nat.zero_add, State.readWords, State.readWord_low, map_range_words]
    dsimp only
    rw [State.readWords_of_above _ _ _ (by decide)]
    rfl
  | succ before ih =>
    intro offset h
    have hlength : before + 1 + (after + 1) = before + (after + 1) + 1 := by omega
    rw [hlength, State.readWords, State.readWord_of_ne (by omega), map_range_words, State.readRegister_latched, if_neg (by omega)]
    dsimp only
    rw [ih (offset + 4) (by omega)]

/-! ### The reads that fill the latch -/

/-- R103: what a read that covers DEVICE_TIME's low word leaves, with what it returned. -/
def State.returned (s : State) (data : RegisterData) : State := { s.latched with host := { s.host with readData := data } }

/-- R197: bytes of DEVICE_TIME's low word. -/
theorem State.readNarrow_low (s : State) {i : Nat} (hi : i < 4) (bits : Nat) :
    s.readNarrow (0x040 + i) bits = ((lowWord s.deviceTime).extractLsb' (8 * i) bits, s.latched) := by
  have hword : 4 * ((0x040 + i) / 4) = 0x040 := by omega
  have hbyte : (0x040 + i) % 4 = i := by omega
  rw [State.readNarrow, hword, hbyte, State.readWord_low]

theorem exec_deviceTimeLowRead_of_access {width : AccessWidth} {data : RegisterData} (h : s.readAccess offset width = (data, s.latched)) :
    exec (.deviceTimeLowRead offset width) s = .next (s.returned data) := by
  show execDeviceTimeLowRead s offset width = _
  rw [execDeviceTimeLowRead, h]
  rfl

theorem exec_deviceTimeLowRead_narrow (s : State) {i : Nat} (hi : i < 4) :
    exec (.deviceTimeLowRead (0x040 + i) .byte) s = .next (s.returned (.byte ((lowWord s.deviceTime).extractLsb' (8 * i) 8))) ∧
    exec (.deviceTimeLowRead (0x040 + i) .half) s = .next (s.returned (.half ((lowWord s.deviceTime).extractLsb' (8 * i) 16))) ∧
    exec (.deviceTimeLowRead (0x040 + i) .threeBytes) s = .next (s.returned (.threeBytes ((lowWord s.deviceTime).extractLsb' (8 * i) 24))) :=
  ⟨exec_deviceTimeLowRead_of_access (by rw [State.readAccess, s.readNarrow_low hi]),
    exec_deviceTimeLowRead_of_access (by rw [State.readAccess, s.readNarrow_low hi]),
    exec_deviceTimeLowRead_of_access (by rw [State.readAccess, s.readNarrow_low hi])⟩

theorem exec_deviceTimeLowRead_words (s : State) {before : Nat} (after : Nat) (h : before ≤ 16) :
    exec (.deviceTimeLowRead (0x040 - 4 * before) (.words (before + (after + 1)))) s =
      .next (s.returned (.words ((List.range (before + (after + 1))).map (fun i =>
        if 0x040 - 4 * before + 4 * i = 0x044 then highWord s.deviceTime else s.readRegister (0x040 - 4 * before + 4 * i))))) := by
  refine exec_deviceTimeLowRead_of_access ?_
  rw [State.readAccess, s.readWords_across after before _ (by omega)]
  simp only [State.readRegister_latched]

/-! ### Writes -/

/-- R197: a write of one aligned word. -/
theorem exec_registerWrite_word (s : State) (offset : Nat) (v : Word) :
    exec (.registerWrite offset (.words 1) [v]) s = .next (s.writeRegister offset v) := rfl

/-- R197: a wider write is its first word, and then the others. -/
theorem exec_registerWrite_succ {count : Nat} {v : Word} {rest : List Word} {u : State}
    (h : exec (.registerWrite offset (.words 1) [v]) s = .next u) :
    exec (.registerWrite offset (.words (count + 1)) (v :: rest)) s = exec (.registerWrite (offset + 4) (.words count) rest) u := by
  cases h
  rfl

/-- R198: a word written to CONTROL. -/
theorem exec_registerWrite_control (s : State) (v : Word) : exec (.registerWrite 0x004 (.words 1) [v]) s =
    exec (if v.getLsbD 1 then .deviceReset else if v.getLsbD 0 then .enableSet else .enableClear) s := by
  rw [exec_registerWrite_word, State.writeRegister, if_pos rfl, State.writeControl]
  split
  · rfl
  · split <;> rfl

/-- R135: a word written to a tail register. -/
theorem exec_registerWrite_tail (s : State) (i : Fin 8) (v : Word) :
    exec (.registerWrite (0x100 + 4 * i.val) (.words 1) [v]) s = exec (.srTailWrite i v) s := by
  rw [exec_registerWrite_word, State.writeRegister, if_neg (by omega), if_pos (by omega), ring_of_offset]
  rfl

/-- R155: a word written to a head register. -/
theorem exec_registerWrite_head (s : State) (i : Fin 8) (v : Word) :
    exec (.registerWrite (0x140 + 4 * i.val) (.words 1) [v]) s = exec (.crHeadWrite i v) s := by
  rw [exec_registerWrite_word, State.writeRegister, if_neg (by omega), if_neg (by omega), if_pos (by omega), ring_of_offset]
  rfl

/-- R200: a word written to neither CONTROL nor an index register concerns the admin configuration, outside READY only. -/
theorem exec_registerWrite_admin (hcontrol : offset ≠ 0x004) (h : NoIndexRegister offset) (v : Word) :
    exec (.registerWrite offset (.words 1) [v]) s =
      .next (if s.ready then s else { s with host := { s.host with admin := s.host.admin.write offset v } }) := by
  rw [exec_registerWrite_word, State.writeRegister, if_neg hcontrol, if_neg h.not_tail, if_neg h.not_head]

/-- Section 11.2: the words of the admin configuration registers. -/
def adminWords : List Nat := [0x010, 0x014, 0x018, 0x020, 0x024, 0x028, 0x030, 0x034, 0x038]

theorem noIndexRegister_of_admin (h : offset ∈ adminWords) : NoIndexRegister offset := by
  have hbelow : ∀ o ∈ adminWords, o < 0x100 := by decide
  have hlt := hbelow offset h
  exact fun i => ⟨by omega, by omega⟩

/-- R200: an admin configuration register written outside READY. -/
theorem exec_registerWrite_of_admin (h : offset ∈ adminWords) (hready : s.host.device ≠ .ready) (v : Word) :
    exec (.registerWrite offset (.words 1) [v]) s =
      .next { s with host := { s.host with admin := s.host.admin.write offset v } } := by
  have hcontrol : offset ≠ 0x004 := fun he => absurd (he ▸ h) (by decide)
  rw [exec_registerWrite_admin hcontrol (noIndexRegister_of_admin h), if_neg (mt State.ready_iff.1 hready)]

theorem AdminRegisters.write_of_other (a : AdminRegisters) (h : offset ∉ adminWords) (v : Word) : a.write offset v = a := by
  unfold AdminRegisters.write
  split
  case h_10 => rfl
  all_goals exact absurd h (by decide)

/-- R197, R200: a word that takes no write. -/
theorem exec_registerWrite_of_other (hcontrol : offset ≠ 0x004) (h : NoIndexRegister offset)
    (hadmin : s.host.device = .ready ∨ offset ∉ adminWords) (v : Word) : exec (.registerWrite offset (.words 1) [v]) s = .next s := by
  rw [exec_registerWrite_admin hcontrol h]
  split
  · rfl
  · rename_i hready
    rw [AdminRegisters.write_of_other _ (hadmin.resolve_left (mt State.ready_iff.2 hready))]

/-- Settles O43: what each word reads; the reads that fill the latch; and the writes by offset and width. -/
theorem windowReadsAndWrites : Obligations.WindowReadsAndWrites := by
  unfold Obligations.WindowReadsAndWrites
  intro s a low high returned
  refine ⟨highWord_lowWord_toNat, identityWord_parts, ?_, ?_, ?_, ⟨rfl, rfl⟩, fun i => ⟨s.readRegister_tail i, s.readRegister_head i⟩,
    fun offset h h' => State.readRegister_eq_zero h h', fun i => (exec_deviceTimeLowRead_narrow s i.isLt).1,
    fun i => (exec_deviceTimeLowRead_narrow s (i := i.val) (by omega)).2.1,
    fun i => (exec_deviceTimeLowRead_narrow s (i := i.val) (by omega)).2.2,
    fun before after h => exec_deviceTimeLowRead_words s after h, fun offset value => ⟨rfl, rfl, rfl⟩, fun offset => rfl,
    fun offset count v rest u h => exec_registerWrite_succ h, fun v => ?_⟩
  · show BitVec.ofNat 32 s.host.enable.toNat = _
    cases s.host.enable <;> rfl
  · show s.statusWord = _
    by_cases hfault : 0 < s.expiry.faultTrips <;> simp [State.statusWord, State.faultOut, hfault]
  · exact ⟨highWord_append_lowWord _, rfl, highWord_append_lowWord _, rfl, highWord_append_lowWord _, rfl⟩
  · have hadmin := fun {o} ho hready => exec_registerWrite_of_admin (s := s) (offset := o) ho hready v
    exact ⟨exec_registerWrite_control s v, fun i => ⟨exec_registerWrite_tail s i v, exec_registerWrite_head s i v⟩,
      fun hready => ⟨hadmin (by decide) hready, hadmin (by decide) hready, hadmin (by decide) hready, hadmin (by decide) hready,
        hadmin (by decide) hready, hadmin (by decide) hready, hadmin (by decide) hready, hadmin (by decide) hready,
        hadmin (by decide) hready⟩,
      fun offset hcontrol h hkept => exec_registerWrite_of_other hcontrol h hkept v⟩

end Sys2Proof.Machine
end

section
/-! The domain commands (section 6.5): CREATE, PAUSE and RESUME DOMAIN. -/

namespace Sys2Proof.Machine

variable {s : State} {w : Taken} {k : CommandKind}

/-! ### Commands that the executor takes -/

/-- R108: the run of a command in hand from SR0 whose field check fails. -/
theorem State.Takes.run_invalidField (h : s.Takes k w) (hsource : w.ticket.source = 0) (hbad : k.fieldsBad w.record w.takenAt = true)
    (body : Taken → State → State) :
    runCommand k k.fieldsBad body s = s.takeRecord.answer w.ticket (refusal k .invalidField w.record) := by
  obtain ⟨hhand, hkind⟩ := h
  rw [runCommand, hhand]
  simp [hkind, hsource, hbad]

/-- The domain that a record names, by its number. -/
theorem recDomainFin_eq {r : CommandBits} {dom : Fin 64} (h : dom.val = recDomain r) : recDomainFin r = dom :=
  Fin.ext (by simp [recDomainFin, ← h])

/-- A domain record is changed as by writing it afresh. -/
theorem State.updateDomain_eq_const (s : State) (d : Fin 64) (f : Domain → Domain) :
    s.updateDomain d f = s.updateDomain d (fun _ => f (s.domain d)) := rfl

/-! ### CREATE and PAUSE DOMAIN -/

/-- Settles O32: the field checks, the refusal of a domain that exists, and the RUNNING record. -/
theorem createDomainCreates : Obligations.CreateDomainCreates := by
  unfold Obligations.CreateDomainCreates
  intro s w h hsource n quota
  refine ⟨fun hbad => ?_, fun dom hdom hlow hhigh => ?_⟩
  · refine congrArg _ (h.run_invalidField hsource (eq_true_of_ne_false fun hgood => ?_) createBody)
    obtain ⟨hn, hlow, hhigh⟩ := createFieldsBad_eq_false.1 hgood
    omega
  · have hgood : createFieldsBad w.record = false :=
      createFieldsBad_eq_false.2 ⟨hdom.symm.trans_le (Nat.le_of_lt_succ dom.isLt), hlow, hhigh⟩
    have hexec : exec .createDomain s = .next (createBody w s.takeRecord) := congrArg _ (runCommand_of_takes h (fun _ => hsource) hgood)
    rw [hexec, createBody, recDomainFin_eq hdom]
    refine ⟨fun hused => ?_, fun hfree => ?_⟩
    · rw [checked_of_some (status := .domainExists) (by simp [firstFailure, hused])]
      rfl
    · rw [checked_of_none (by simp [firstFailure, hfree])]
      rfl

/-- R128, R129: the number of a domain record passes the field check of PAUSE and RESUME DOMAIN. -/
theorem domainFieldsBad_of_fin {r : CommandBits} {dom : Fin 64} (h : dom.val = recDomain r) : domainFieldsBad r = false :=
  domainFieldsBad_eq_false.2 (h.symm.trans_le (Nat.le_of_lt_succ dom.isLt))

/-- Settles O35: the refusals in order, and the record with its depth raised. -/
theorem pauseDomainPauses : Obligations.PauseDomainPauses := by
  unfold Obligations.PauseDomainPauses
  intro s w h hsource
  refine ⟨fun hbad => congrArg _ (h.run_invalidField hsource (decide_eq_true hbad) pauseBody), fun dom hdom => ?_⟩
  intro r
  have hrecord : s.takeRecord.domain dom = r := (State.takeRecord_accessors s).2.1 dom
  have hexec : exec .pauseDomain s = .next (checked .pauseDomain w
      [(r.state == .free, .noSuchDomain), (decide (Config.maxPauseDepth ≤ r.pauseDepth), .pauseLimit)]
      (fun s => (s.updateDomain dom (·.paused w.takenAt), { status := .success, count := BitVec.ofNat 32 (r.pauseDepth + 1) }))
      s.takeRecord) := by
    rw [← hrecord, ← recDomainFin_eq hdom]
    exact congrArg _ (runCommand_of_takes h (fun _ => hsource) (domainFieldsBad_of_fin hdom))
  rw [hexec]
  refine ⟨fun hfree => ?_, fun hused hlimit => ?_, fun hused hdepth => ?_⟩
  · rw [checked_of_some (status := .noSuchDomain) (by simp [firstFailure, hfree])]
    rfl
  · rw [checked_of_some (status := .pauseLimit) (by simp [firstFailure, hused, hlimit, Config.maxPauseDepth])]
    rfl
  · rw [checked_of_none (by simp [firstFailure, hused, Nat.not_le.2 hdepth, Config.maxPauseDepth]), State.updateDomain_eq_const, hrecord]
    rfl

/-! ### RESUME DOMAIN -/

/-- R40, R80: the splice of a held list, and the RUNNING record of its domain. -/
theorem State.splice_updateDomain (s : State) (dom : Fin 64) (held : List Nat) (f : Domain → Domain) :
    let t := (s.splice held).updateDomain dom f
    t.domain dom = f (s.domain dom) ∧ s.OnlyDomain t dom ∧ t.wheel = { s.wheel with dueQueue := s.wheel.dueQueue ++ held } ∧
      (∀ k, t.rowAt k = if k ∈ held then
        { s.rowAt k with entry := (s.entryAt k).map (fun e => { e with phase := .due, location := some .dueQueue }) } else s.rowAt k) ∧
      t.table.freeList = s.table.freeList ∧ s.SameReservation t ∧ t.expiry = s.expiry ∧ t.poster.rings = s.poster.rings ∧
      s.OnlyTimers t := by
  have hdomain : ∀ j, (s.splice held).domain j = s.domain j := State.domain_congr (by simp)
  have hwheel : (held.foldl State.makeDue s).wheel = s.wheel :=
    foldl_ind (Q := fun t => t.wheel = s.wheel) rfl fun t k _ ht => by simpa using ht
  refine ⟨by simp [hdomain], fun j hj => by simp [hj, hdomain], ?_, fun k => State.rowAt_foldl_makeDue held s k, by simp,
    by simp [State.SameReservation], by simp, by simp, by simp [State.OnlyTimers]⟩
  simp [State.splice, hwheel]

/-- Settles O36: the refusals in order, the depth lowered, and at depth 0 the splice of the held entries. -/
theorem resumeDomainResumes : Obligations.ResumeDomainResumes := by
  unfold Obligations.ResumeDomainResumes
  intro s w h hsource
  refine ⟨fun hbad => congrArg _ (h.run_invalidField hsource (decide_eq_true hbad) resumeBody), fun dom hdom => ?_⟩
  intro r
  have hrecord : s.takeRecord.domain dom = r := (State.takeRecord_accessors s).2.1 dom
  have hexec : exec .resumeDomain s = .next (checked .resumeDomain w
      [(r.state == .free, .noSuchDomain), (r.isBusy, .domainBusy), (r.pauseDepth == 0, .notPaused)]
      (resumeEffect w.record w.takenAt) s.takeRecord) := by
    rw [← hrecord, ← recDomainFin_eq hdom]
    exact congrArg _ (runCommand_of_takes h (fun _ => hsource) (domainFieldsBad_of_fin hdom))
  rw [hexec]
  refine ⟨fun hfree => ?_, fun hused hbusy => ?_, fun hused hidle hdepth => ?_, fun hused hidle hdepth => ?_, fun hused hidle hdepth => ?_⟩
  · rw [checked_of_some (status := .noSuchDomain) (by simp [firstFailure, hfree])]
    rfl
  · rw [checked_of_some (status := .domainBusy) (by simp [firstFailure, hused, hbusy])]
    rfl
  · rw [checked_of_some (status := .notPaused) (by simp [firstFailure, hused, hidle, hdepth])]
    rfl
  · rw [checked_of_none (by simp [firstFailure, hused, hidle]; omega), resumeEffect, recDomainFin_eq hdom, hrecord,
      if_neg (by omega), State.updateDomain_eq_const, hrecord]
  · rw [checked_of_none (by simp [firstFailure, hused, hidle, hdepth]), resumeEffect, recDomainFin_eq hdom, hrecord, if_pos hdepth]
    refine ⟨_, rfl, ?_⟩
    obtain ⟨hrec, honly, hwheel, hrows, hfree, hres, hexpiry, hrings, htimers⟩ := s.takeRecord.splice_updateDomain dom r.held
      (fun d => { d with pauseDepth := 0, state := .running, held := [], pauseStart := none })
    rw [hrecord] at hrec
    simp only [State.OnlyDomain, State.SameReservation, State.takeRecord_accessors, State.takeRecord_frame,
      State.takeRecord_tableReads] at honly hwheel hrows hfree hres hexpiry hrings
    exact ⟨hrec, honly, hwheel, hrows, hfree, hres, hexpiry, hrings, htimers⟩

end Sys2Proof.Machine
end

section
/-! The ends of commands (R109, R111, R146), and the ring commands (section 6.3): OPEN and CLOSE SUBMISSION RING; OPEN, CLOSE and RESTART COMPLETION
RING. -/

namespace Sys2Proof.Machine

variable {s : State} {w : Taken}

/-! ### The ends of commands -/

/-- R146: the end of a command whose source ring is not CLOSING leaves the ring. -/
theorem State.finishClosing_of_not {i : Fin 8} (h : (s.sr i).state ≠ .closing) : s.finishClosing i = s := if_neg h

/-- R146: the end of the command that a CLOSING ring waits for closes it, and hands the held completion. -/
theorem State.finishClosing_of_closing {i : Fin 8} (h : (s.sr i).state = .closing) :
    s.finishClosing i = (s.updateSr i (fun _ => SubmissionRing.reset)).handHeld := if_pos h

/-- R156, R171: which of the two a hand-over is. -/
theorem State.handCompletion_eq (s : State) (c : Fin 8) (record : Completion) : s.handCompletion c record =
    if s.host.device = .ready ∧ (s.cr c).state = .active then s.takeForWriting c true record .completion
    else s.updateCr c (fun q => { q with queue := q.queue ++ [record] }) := by
  simp [State.handCompletion, State.ready]

/-- Settles O18: the hand-over, the IDLE executor, and the end of a CLOSING source ring. -/
theorem commandEndHandsCompletion : Obligations.CommandEndHandsCompletion := by
  unfold Obligations.CommandEndHandsCompletion
  intro s k r record handed idle
  have hhanded : s.reply k r = handed := s.handCompletion_eq k.ring record
  have hanswer : s.answer k r = idle.finishClosing k.source := by rw [State.answer, hhanded]; rfl
  have hsr : idle.sr k.source = s.sr k.source := State.sr_congr (s := s) (t := idle) (by simp [idle, ← hhanded]) k.source
  have hheld : idle.executor.held = s.executor.held := by simp [idle, ← hhanded]
  refine ⟨fun h => ?_, fun h => ?_⟩
  · rw [hanswer, State.finishClosing_of_not (hsr ▸ h)]
  · intro closed
    rw [hanswer, State.finishClosing_of_closing (hsr ▸ h), State.handHeld]
    refine ⟨fun hnone => ?_, fun held hsome => ?_⟩
    · simp [hheld, hnone, closed]
    · simp [hheld, hsome, closed]

/-! ### Submission rings -/

/-- Settles O27: the refusals in order, and the record of the opened ring. -/
theorem openSubmissionRingOpens : Obligations.OpenSubmissionRingOpens := by
  unfold Obligations.OpenSubmissionRingOpens
  intro s w h r i
  have hexec : exec .openSubmissionRing s = .next (openSubmissionBody w s.takeRecord) := congrArg _ (h.run openSubmissionBody)
  rw [hexec, openSubmissionBody]
  simp only [State.takeRecord_accessors]
  refine ⟨fun hopen => ?_, fun hclosed hpaired => ?_, fun hclosed hpaired => ?_⟩
  · rw [checked_of_some (status := .ringOpen) (by simp [firstFailure, i, r, hopen])]
    rfl
  · rw [checked_of_some (status := .noSuchRing) (by simp [firstFailure, i, r, hclosed, hpaired])]
    rfl
  · rw [checked_of_none (by simp [firstFailure, i, r, hclosed, hpaired])]
    refine ⟨_, rfl, ?_, fun j hj => ?_, ?_⟩
    · simp [i, r, openedSubmission]
    · simp [i, r, hj]
    · simp [State.SameTimers]

/-- Settles O28: the refusal of a ring that is not open, the CLOSING ring, and the ring CLOSED at once. -/
theorem closeSubmissionRingCloses : Obligations.CloseSubmissionRingCloses := by
  unfold Obligations.CloseSubmissionRingCloses
  intro s w h i taken fetching path reply
  have hexec : exec .closeSubmissionRing s = .next (closeSubmissionBody w s.takeRecord) := congrArg _ (h.run closeSubmissionBody)
  have hring : s.takeRecord.sr (recRingFin w.record) = s.sr i := (State.takeRecord_accessors s).2.2.1 i
  rw [hexec, closeSubmissionBody, hring]
  have hopen : (s.sr i).state = .active ∨ (s.sr i).state = .error →
      firstFailure [((s.sr i).state == .closed || (s.sr i).state == .closing, Status.noSuchRing)] = none := by
    rintro (h | h) <;> simp [firstFailure, h]
  refine ⟨fun hclosed => ?_, fun hactive hfetch => ?_, fun hatOnce => ?_⟩
  · have hrefused : firstFailure [((s.sr i).state == .closed || (s.sr i).state == .closing, Status.noSuchRing)] = some .noSuchRing := by
      rcases hclosed with h | h <;> simp [firstFailure, h]
    rw [hrefused]
    rfl
  · rw [hopen (.inl hactive)]
    exact congrArg _ (if_pos ⟨hactive, hfetch⟩)
  · rw [hopen (hatOnce.imp_left And.left)]
    have hnot : ¬ ((s.sr i).state = .active ∧ s.takeRecord.fetcher.path.source = some i) := fun ⟨hactive, hfetch⟩ =>
      hatOnce.elim (fun h => h.2 hfetch) fun herror => by simp [hactive] at herror
    have hpath : taken.fetcher.path.noteClosed i = path := rfl
    rw [← hpath]
    exact congrArg _ (if_neg hnot)

/-! ### Completion rings -/

/-- R123: what makes a ring in use, as the command's check reads it. -/
theorem State.ringInUse_iff (s : State) (c : Fin 8) : s.ringInUse c = true ↔
    (∃ i, (s.sr i).state ≠ .closed ∧ (s.sr i).paired = c) ∨ 0 < (s.cr c).bound ∨ (∃ p ∈ s.marks, p.2.entry.ring = c) ∨
      (s.cr c).deferred ≠ [] ∨ 0 < (s.cr c).reserved ∨ (∃ q ∈ s.host.dma, q.toRing c = true) ∨
      ∃ j, s.transfer.job = some j ∧ 0 < j.ringHolds[c] := by
  have hpaired : s.fetcher.rings.toList.any (fun q => q.state != .closed && q.paired == c) =
      decide (∃ i, (s.sr i).state ≠ .closed ∧ (s.sr i).paired = c) := vector_any_toList (by simp [State.sr])
  have hheld : s.ringHeld c = true ↔ ∃ j, s.transfer.job = some j ∧ 0 < j.ringHolds[c] := by
    rw [State.ringHeld, Option.any_eq_true]
    simp only [decide_eq_true_iff]
  rw [State.ringInUse, hpaired]
  simp only [Bool.or_eq_true, decide_eq_true_iff, List.any_eq_true, beq_iff_eq, bne_iff_ne, hheld, or_assoc]

/-- Settles O29: OPEN's refusal and record, and CLOSE's refusals and record. -/
theorem completionRingsOpenAndClose : Obligations.CompletionRingsOpenAndClose := by
  unfold Obligations.CompletionRingsOpenAndClose
  refine ⟨fun s w h => ?_, fun s w h => ?_⟩
  · intro r c
    have hexec : exec .openCompletionRing s = .next (openCompletionBody w s.takeRecord) := congrArg _ (h.run openCompletionBody)
    rw [hexec, openCompletionBody]
    simp only [State.takeRecord_accessors]
    refine ⟨fun hopen => ?_, fun hclosed => ?_⟩
    · rw [checked_of_some (status := .ringOpen) (by simp [firstFailure, c, r, hopen])]
      rfl
    · rw [checked_of_none (by simp [firstFailure, c, r, hclosed])]
      rfl
  · intro c inUse
    have hexec : exec .closeCompletionRing s = .next (closeCompletionBody w s.takeRecord) := congrArg _ (h.run closeCompletionBody)
    have huse : s.takeRecord.ringInUse c = true ↔ inUse := by
      rw [State.ringInUse_iff]
      simp [State.marks, inUse]
    rw [hexec, closeCompletionBody]
    simp only [State.takeRecord_accessors]
    refine ⟨fun hclosed => ?_, fun hopen hused => ?_, fun hopen hfree => ?_⟩
    · rw [checked_of_some (status := .noSuchRing) (by simp [firstFailure, c, hclosed])]
      rfl
    · rw [checked_of_some (status := .ringInUse) (by simp [firstFailure, c, hopen, huse.2 hused])]
      rfl
    · rw [checked_of_none (by simp [firstFailure, c, hopen, mt huse.1 hfree])]

/-- Two changes of one element are one. -/
theorem updateAt_updateAt {α : Type} {n : Nat} (v : Vector α n) (i : Fin n) (f g : α → α) :
    updateAt (updateAt v i f) i g = updateAt v i (g ∘ f) :=
  vector_ext fun j => by simp only [updateAt_get]; split <;> simp

/-- Two changes of one completion ring are one. -/
theorem State.updateCr_updateCr (s : State) (c : Fin 8) (f g : CompletionRing → CompletionRing) :
    (s.updateCr c f).updateCr c g = s.updateCr c (g ∘ f) := by
  simp only [State.updateCr, updateAt_updateAt]

/-- Settles O30: the refusals in order, and the ring restarted with its queue written, or kept outside READY. -/
theorem restartReopensRing : Obligations.RestartReopensRing := by
  unfold Obligations.RestartReopensRing
  intro s w h c q base restarted reply
  have hexec : exec .restartCompletionRing s = .next (restartBody w s.takeRecord) := congrArg _ (h.run restartBody)
  have hcr : s.takeRecord.cr (recRingFin w.record) = q := (State.takeRecord_accessors s).2.2.2.1 c
  have hkept : s.takeRecord.updateCr c (fun ring => ring.restarted base) = restarted q.queue := by
    rw [State.updateCr_eq_const, hcr]
    rfl
  have hwritten : (restarted q.queue).writeQueue c =
      q.queue.foldl (fun s record => s.takeForWriting c true record .completion) (restarted []) := by
    have hqueue : ((restarted q.queue).cr c).queue = q.queue := by simp [restarted]
    have hempty : (restarted q.queue).updateCr c (fun ring => { ring with queue := [] }) = restarted [] := State.updateCr_updateCr ..
    rw [State.writeQueue, hqueue, hempty]
  have hready : (restarted q.queue).ready = s.ready := by simp [restarted]
  rw [hexec, restartBody, hcr]
  refine ⟨fun hclosed => ?_, fun hactive => ?_, fun herror hdevice => ?_, fun herror hdevice => ?_⟩
  · rw [checked_of_some (status := .noSuchRing) (by simp [firstFailure, hclosed])]
    rfl
  · rw [checked_of_some (status := .ringNotFailed) (by simp [firstFailure, hactive])]
    rfl
  · rw [checked_of_none (by simp [firstFailure, herror]), restartEffect, hcr, hkept, hready, if_pos (State.ready_iff.2 hdevice), hwritten]
  · rw [checked_of_none (by simp [firstFailure, herror]), restartEffect, hcr, hkept, hready, if_neg (mt State.ready_iff.1 hdevice)]

end Sys2Proof.Machine
end

section
/-! The transfer commands (section 6.6): the start of an EXPORT or IMPORT, the ABORT of a job, and the bus error of its transfer. -/

namespace Sys2Proof.Machine

variable {s : State} {w : Taken} {k : CommandKind}

/-! ### The start of a job -/

/-- R108: a job-kind command whose checks are decided. -/
theorem checkedJob_of_some {checks : List (Bool × Status)} {start : State → State} {status : Status} (h : firstFailure checks = some status) :
    checkedJob k w checks start s = s.answer w.ticket (refusal k status w.record) := by
  rw [checkedJob, h]

theorem checkedJob_of_none {checks : List (Bool × Status)} {start : State → State} (h : firstFailure checks = none) :
    checkedJob k w checks start s = (start s).endCommand w.ticket := by
  rw [checkedJob, h]

/-- R174, R175, R188: the start of a job: its domain is busy, and where a transfer can be issued the job has begun and its first is. -/
theorem State.startJob_eq {j begun : Job} {first : DmaRequest} (busy : TransferBusy)
    (hbegun : (if s.host.device = .ready ∧ s.transferring = false then j.begun else j) = begun) (hfirst : j.firstTransfer = first) :
    s.startJob j busy = { s.updateDomain j.domain (fun q => { q with busy := busy }) with
      transfer := { job := some begun }
      host := { s.host with dma := if s.host.device = .ready ∧ s.transferring = false then s.host.dma ++ [first] else s.host.dma } } := by
  have hbegins : (s.ready = true ∧ (!s.transferring) = true) = (s.host.device = .ready ∧ s.transferring = false) := by
    simp [State.ready]
  generalize hu : ({ s.updateDomain j.domain (fun q => { q with busy := busy }) with transfer := { job := some j } } : State) = u
  have hjob : u.transfer.job = some j := by rw [← hu]
  have hstart : s.startJob j busy = if s.host.device = .ready ∧ s.transferring = false then u.beginTransfers else u := by
    simp only [← hbegins, ← hu]
    rfl
  rw [hstart, ← hbegun, ← hfirst]
  split
  · rw [State.beginTransfers, State.updateJob_issue hjob, Job.firstTransfer_begun, ← hu]
    rfl
  · rw [← hu]
    rfl

/-- Settles O37: the checks of both commands in order, and the whole job record. -/
theorem transfersStart : Obligations.TransfersStart := by
  unfold Obligations.TransfersStart
  refine ⟨fun s w h => ?_, fun s w h => ?_⟩
  · intro r n dom checks begins header
    have hchecks : exportChecks r s.takeRecord = checks := by
      simp [exportChecks, checks, Domain.isBusy, State.entries, dom, n]
    have hexec : exec .exportDomain s = .next (exportBody w s.takeRecord) := congrArg _ (h.run exportBody)
    rw [hexec, exportBody, hchecks]
    refine ⟨fun status hs => ?_, ?_⟩
    · rw [checkedJob_of_some hs]
      rfl
    · intro job hn
      have hjob : exportJob w.ticket r s.takeRecord = { job with runningSum := 0#32 } := by
        simp only [exportJob, State.takeRecord_frame, State.takeRecord_accessors]
        rfl
      have hbegun : (if s.takeRecord.host.device = .ready ∧ s.takeRecord.transferring = false then
          (exportJob w.ticket r s.takeRecord).begun else exportJob w.ticket r s.takeRecord) = job := by
        have hbegins : (s.takeRecord.host.device = .ready ∧ s.takeRecord.transferring = false) = begins := by
          simp only [State.takeRecord_frame, State.transferring, begins]
        have hsum : 0#32 + wordSum header = wordSum header := BitVec.zero_add _
        simp only [hbegins, hjob]
        by_cases h : begins
        · have hrunning : job = { job with runningSum := wordSum header } := by simp only [job, if_pos h]
          rw [if_pos h, hrunning, ← hsum]
          rfl
        · rw [if_neg h]
          simp only [job, if_neg h]
      have hfirst : (exportJob w.ticket r s.takeRecord).firstTransfer = .transferWrite true .header (recAddressA r) 32 header := by
        rw [hjob]
        rfl
      rw [checkedJob_of_none hn, State.startJob_eq .exporting hbegun hfirst]
      simp only [State.takeRecord_frame, State.transferring]
      rfl
  · intro r n dom checks
    have hchecks : importChecks r s.takeRecord = checks := by
      simp [importChecks, checks, Domain.isBusy, dom, n]
    have hexec : exec .importDomain s = .next (importBody w s.takeRecord) := congrArg _ (h.run importBody)
    rw [hexec, importBody, hchecks]
    refine ⟨fun status hs => ?_, ?_⟩
    · rw [checkedJob_of_some hs]
      rfl
    · intro job hn
      have hbegun : (if s.takeRecord.host.device = .ready ∧ s.takeRecord.transferring = false then
          (newJob w.ticket r .verifying).begun else newJob w.ticket r .verifying) = job := ite_self _
      rw [checkedJob_of_none hn, State.startJob_eq .importing hbegun rfl]
      simp only [State.takeRecord_frame, State.transferring]
      rfl

/-! ### The end of a job that fails -/

theorem State.failJob_of_export {j : Job} (h : j.stage = .writing ∨ j.stage = .releasing) (status : Status) :
    s.failJob j status = s.endJob j status j.recordsDone 0#64 := by
  unfold State.failJob
  rcases h with h | h <;> rw [h]

theorem State.failJob_of_verifying {j : Job} (h : j.stage = .verifying) (status : Status) :
    s.failJob j status = s.endJob j status 0 0#64 := by
  rw [State.failJob, h]

theorem State.failJob_of_creating {j : Job} (h : j.stage = .creating) (status : Status) :
    s.failJob j status = (s.rollback j.domain).endJob j status 0 0#64 := by
  rw [State.failJob, h]

/-- R187, R188: the end of the Transfer Unit's transfer in a bus error. -/
theorem exec_transferBusError {q : DmaRequest} (h : s.host.dma.find? DmaRequest.ofTransfer = some q) :
    (s.host.device ≠ .ready ∨ s.transfer.job = none → exec .transferBusError s = .next (s.endDma DmaRequest.ofTransfer)) ∧
    ∀ j, s.host.device = .ready → s.transfer.job = some j →
      exec .transferBusError s = .next (if q.isLive then (s.endDma DmaRequest.ofTransfer).failJob j .busError
        else (s.endDma DmaRequest.ofTransfer).orphanEnded) := by
  have hexec : exec .transferBusError s = execTransferBusError s := rfl
  rw [hexec, execTransferBusError, h]
  refine ⟨fun hno => congrArg _ ?_, fun j hready hj => congrArg _ ?_⟩
  · dsimp only
    split
    case isFalse => rfl
    case isTrue hready =>
      have hnone := hno.resolve_left fun hne => hne (State.ready_iff.1 hready)
      rw [State.orphanEnded_of_no_job (by simpa using hnone), hnone]
      exact ite_self _
  · dsimp only
    rw [if_pos (State.ready_iff.2 hready), hj]

/-- Settles O38: an ABORT by device state and job, and a bus error by the transfer and the stage of its job. -/
theorem transfersFail : Obligations.TransfersFail := by
  unfold Obligations.TransfersFail
  refine ⟨fun s w h => ?_, fun s hnone => ?_, fun s q hfind => ?_⟩
  · have hexec : exec .abortTransfer s = .next (abortBody w s.takeRecord) := congrArg _ (h.run abortBody)
    have hjob : s.takeRecord.transfer.job = s.transfer.job := by simp
    rw [hexec, abortBody, hjob]
    refine ⟨fun hnone => ?_, fun j hj => ?_⟩
    · rw [hnone]
      rfl
    · have habort : s.host.device = .ready → s.takeRecord.ready = true := fun hready => by simpa using State.ready_iff.2 hready
      rw [hj]
      dsimp only
      refine ⟨fun hdevice => ?_, fun hdevice hstage => ?_, fun hdevice hstage => ?_, fun hdevice hstage => ?_⟩
      · have hready : ¬ s.ready = true := mt State.ready_iff.1 hdevice
        have htakeable : s.takeable = none := if_neg fun h => hready h.1
        rw [State.takeRecord_of_not_takeable htakeable, if_neg hready]
      · rw [if_pos (habort hdevice), State.failJob_of_export hstage]
      · rw [if_pos (habort hdevice), State.failJob_of_verifying hstage]
      · rw [if_pos (habort hdevice), State.failJob_of_creating hstage]
  · have hexec : exec .transferBusError s = execTransferBusError s := rfl
    rw [hexec, execTransferBusError, hnone]
  · obtain ⟨hno, hyes⟩ := exec_transferBusError hfind
    refine ⟨fun h => hno (.inl h), fun _ h => hno (.inr h), fun j hready hj => ?_⟩
    intro begun
    have hended : (s.endDma DmaRequest.ofTransfer).transfer.job = some j := hj
    rw [hyes j hready hj]
    refine ⟨fun hlive => ?_, fun hlive hstage => ?_, fun hlive hstage => ?_, fun hlive hstage => ?_⟩
    · rw [if_neg (by simp [hlive]), State.orphanEnded_of_job hended]
    · rw [if_pos hlive, State.failJob_of_export hstage]
    · rw [if_pos hlive, State.failJob_of_verifying hstage]
    · rw [if_pos hlive, State.failJob_of_creating hstage]

end Sys2Proof.Machine
end

section
/-! The arbiter (R136, R139): which submission ring an ARBITRATION serves, after the take that it may make (R138), and the fetch that it starts (R140). -/

namespace Sys2Proof.Machine

variable {s : State} {i : Fin 8}

/-! ### The take before an arbitration -/

/-- The kinds whose take and claim are one step, as the kinds that a record may have. -/
theorem any_atOnce_eq_true (k : Option CommandKind) :
    k.any (·.atOnce) = true ↔ k ∈ [some .kick, some .readStatus, some .pauseDomain, some .resumeDomain] := by
  cases k with
  | none => simp
  | some k => cases k <;> decide

/-- R106: after a take nothing more can be taken. -/
theorem State.takeable_takeRecord {d : Delivered} (h : s.takeable = some d) : s.takeRecord.takeable = none := by
  refine State.takeable_of_busy ?_
  rw [State.takeRecord_of_takeable h]
  exact ExecutorState.noConfusion

/-- R138: an ARBITRATION takes the record first, but not one whose take and claim are one step. -/
theorem State.takeAhead_of_takeable {d : Delivered} (h : s.takeable = some d)
    (hk : kindOf d.record ∉ [some .kick, some .readStatus, some .pauseDomain, some .resumeDomain]) : s.takeAhead = s.takeRecord := by
  rcases s.takeAhead_spec with ⟨htake, -⟩ | ⟨-, d', hd', honce⟩
  · exact htake
  · cases h.symm.trans hd'
    exact absurd ((any_atOnce_eq_true _).1 honce) hk

theorem State.takeAhead_of_not (h : ∀ d, s.takeable = some d →
    kindOf d.record ∈ [some .kick, some .readStatus, some .pauseDomain, some .resumeDomain]) : s.takeAhead = s := by
  rcases s.takeAhead_spec with ⟨htake, hno⟩ | ⟨htake, -⟩
  · cases ht : s.takeable with
    | none => rw [htake, State.takeRecord_of_not_takeable ht]
    | some d => exact absurd ((any_atOnce_eq_true _).2 (h d ht)) (by simp [hno d ht])
  · exact htake

/-! ### The search after the holder -/

/-- R139, step 3: how many I/O rings come before ring `i` in the search that starts after the holder `g`. -/
def searchTurn (g : Option (Fin 8)) (i : Fin 8) : Nat := (i.val + 6 - ((g.map Fin.val).getD 7)) % 7

/-- R139: the search meets the I/O rings in the order of their turns. -/
theorem searchOrder_pairwise (g : Option (Fin 8)) : (searchOrder g).Pairwise (fun i j => searchTurn g i < searchTurn g j) := by
  revert g
  decide

theorem mem_searchOrder (g : Option (Fin 8)) (i : Fin 8) : i ∈ searchOrder g ↔ i ≠ 0 := by
  revert g i
  decide

/-- In a list in strictly rising order of `f`, the search for `p` finds the element of the least `f` among those with `p`. -/
theorem find?_eq_some_of_least {α : Type} {l : List α} {f : α → Nat} {p : α → Bool} {a : α} (hl : l.Pairwise (fun x y => f x < f y))
    (ha : a ∈ l) (hp : p a = true) (hleast : ∀ x ∈ l, p x = true → f a ≤ f x) : l.find? p = some a := by
  obtain ⟨before, after, rfl⟩ := List.append_of_mem ha
  refine List.find?_eq_some_iff_append.2 ⟨hp, before, after, rfl, fun x hx => ?_⟩
  have hlt : f x < f a := (List.pairwise_append.1 hl).2.2 x hx a (by simp)
  by_contra hpx
  exact absurd (hleast x (by simp [hx]) (by simpa using hpx)) (Nat.not_le.2 hlt)

/-! ### The ring that is served -/

/-- R139, step 1. -/
theorem State.arbitrate_of_admin (h : s.eligible 0 = true) : s.arbitrate = some (0, s.fetcher) := if_pos h

/-- R139, step 2: the holder goes on in its grant. -/
theorem State.arbitrate_of_holder (hadmin : s.eligible 0 = false) (hgrant : s.fetcher.grant = some i) (he : s.eligible i = true)
    (hused : s.fetcher.used < s.fetcher.grantWeight) :
    s.arbitrate = some (i, { s.fetcher with used := s.fetcher.used + 1 }) := by
  simp [State.arbitrate, hadmin, hgrant, he, hused]

/-- R139, steps 3 and 4: no holder goes on. -/
theorem State.arbitrate_of_search (hadmin : s.eligible 0 = false)
    (hno : ∀ i, ¬ (s.fetcher.grant = some i ∧ s.eligible i = true ∧ s.fetcher.used < s.fetcher.grantWeight)) :
    s.arbitrate = ((searchOrder s.fetcher.grant).find? (fun i => s.eligible i)).map
      (fun i => (i, s.fetcher.grantTo i (s.sr i).weight)) := by
  unfold State.arbitrate
  simp only [hadmin, Bool.false_eq_true, if_false]
  cases hgrant : s.fetcher.grant with
  | none => rfl
  | some h => exact if_neg fun hgoes => hno h ⟨hgrant, hgoes⟩

/-- R139, step 4: no ring is eligible. -/
theorem State.arbitrate_of_none (h : ∀ i, s.eligible i = false) : s.arbitrate = none := by
  rw [State.arbitrate_of_search (h 0) fun i hi => by simp [h i] at hi]
  simp [h]

/-- R136: what makes a ring eligible. -/
theorem State.eligible_iff : s.eligible i = true ↔ (s.sr i).state = .active ∧ (s.sr i).tail ≠ (s.sr i).head ∧
    (s.cr (s.sr i).paired).state = .active ∧
    1 ≤ (s.cr (s.sr i).paired).size - 1 - (s.cr (s.sr i).paired).unconsumed - (s.cr (s.sr i).paired).reserved := by
  simp only [State.eligible, Bool.and_eq_true, beq_iff_eq, bne_iff_ne, decide_eq_true_iff, and_assoc]
  rfl

/-- R138: with the path IDLE in READY the arbitration serves the ring that it chooses. -/
theorem State.holdArbitration_of_some {f : Fetcher} (hready : s.host.device = .ready) (hpath : s.fetcher.path = .idle)
    (h : s.arbitrate = some (i, f)) : s.holdArbitration = ({ s with fetcher := f } : State).startFetch i := by
  rw [State.holdArbitration, if_pos ⟨State.ready_iff.2 hready, hpath⟩, h]

/-- Settles O44: the take before, and the ring served, by the steps of R139. -/
theorem arbitrationServes : Obligations.ArbitrationServes := by
  unfold Obligations.ArbitrationServes
  refine ⟨fun s d hd hk => ?_, fun s hkinds => ?_⟩
  · have hafter : s.takeRecord.takeAhead = s.takeRecord := State.takeAhead_of_not fun d' hd' => by
      rw [State.takeable_takeRecord hd] at hd'
      cases hd'
    show Host.Outcome.next s.takeAhead.holdArbitration = .next s.takeRecord.takeAhead.holdArbitration
    rw [hafter, State.takeAhead_of_takeable hd hk]
  · intro eligible holds turn served
    have hexec : exec .arbitration s = .next s.holdArbitration := by
      show Host.Outcome.next s.takeAhead.holdArbitration = _
      rw [State.takeAhead_of_not hkinds]
    have helig : ∀ i, s.eligible i = true ↔ eligible i := fun i => State.eligible_iff
    have hinelig : ∀ i, ¬ eligible i → s.eligible i = false := fun i h => eq_false_of_ne_true (mt (helig i).1 h)
    rw [hexec]
    refine ⟨fun h => congrArg _ ?_, fun hready hpath => ⟨fun h0 => congrArg _ ?_, fun h0 => ⟨fun i hi => congrArg _ ?_,
      fun hno i hi he hfirst => congrArg _ ?_⟩⟩⟩
    · rw [State.holdArbitration]
      split
      next hopen =>
        have hnone := (h.resolve_left (not_not_intro (State.ready_iff.1 hopen.1))).resolve_left (not_not_intro hopen.2)
        rw [State.arbitrate_of_none fun i => hinelig i (hnone i)]
      next => rfl
    · exact State.holdArbitration_of_some hready hpath (State.arbitrate_of_admin ((helig 0).2 h0))
    · obtain ⟨hgrant, he, hused⟩ := hi
      exact State.holdArbitration_of_some hready hpath (State.arbitrate_of_holder (hinelig 0 h0) hgrant ((helig i).2 he) hused)
    · have hfind : (searchOrder s.fetcher.grant).find? (fun i => s.eligible i) = some i :=
        find?_eq_some_of_least (searchOrder_pairwise _) ((mem_searchOrder _ i).2 hi) ((helig i).2 he) fun j hj hp =>
          hfirst j ((mem_searchOrder _ j).1 hj) ((helig j).1 hp)
      have hsearch := State.arbitrate_of_search (hinelig 0 h0) fun j hj => hno j (by simpa only [helig] using hj)
      rw [hfind] at hsearch
      exact State.holdArbitration_of_some hready hpath hsearch

end Sys2Proof.Machine
end

section
/-! Every command answers a next state, and leaves the queue of waiting commands alone (R108, R142, R166, R187, R191). -/

namespace Sys2Proof.Machine

variable {s t : State}

/-! ### Commands that the executor takes -/

/-- R106, R108: a command in hand leaves the queue when its body does. -/
theorem pending_runCommand {k : CommandKind} {fieldsBad : CommandBits → Nat → Bool} {body : Taken → State → State}
    (hbody : ∀ (w : Taken) (u : State), (body w u).pending = u.pending) : (runCommand k fieldsBad body s).pending = s.pending :=
  runCommand_ind (Q := fun u => u.pending = s.pending) rfl (fun _ _ _ => by simp) fun w _ _ _ _ => (hbody w _).trans (by simp)

theorem pending_checked {k : CommandKind} {w : Taken} {checks : List (Bool × Status)} {effect : State → State × Reply}
    (heffect : (effect s).1.pending = s.pending) : (checked k w checks effect s).pending = s.pending :=
  checked_ind (Q := fun u => u.pending = s.pending) (fun _ => by simp) fun _ => by simpa using heffect

theorem pending_checkedJob {k : CommandKind} {w : Taken} {checks : List (Bool × Status)} {start : State → State}
    (hstart : (start s).pending = s.pending) : (checkedJob k w checks start s).pending = s.pending :=
  checkedJob_ind (Q := fun u => u.pending = s.pending) (fun _ => by simp) fun _ => by simpa using hstart

theorem pending_armClaim (w : Taken) (s : State) : (armClaim w s).pending = s.pending := pending_checked (by simp [armEffect])

/-! ### The register window -/

theorem State.pending_writeEnable1 (s : State) : s.writeEnable1.pending = s.pending := by
  unfold State.writeEnable1; split
  · rfl
  · dsimp only; split <;> simp

theorem State.pending_writeEnable0 (s : State) : s.writeEnable0.pending = s.pending := by
  unfold State.writeEnable0; split
  · dsimp only; split <;> rfl
  · rfl

theorem State.pending_writeRegister (s : State) (offset : Nat) (v : Word) : (s.writeRegister offset v).pending = s.pending := by
  unfold State.writeRegister State.writeControl
  split
  · split
    · rfl
    · split
      · exact s.pending_writeEnable1
      · exact s.pending_writeEnable0
  · split
    · simp
    · split
      · simp
      · split <;> rfl

theorem State.pending_writeWords (l : List Word) : ∀ (offset : Nat) (s : State), (State.writeWords offset l s).pending = s.pending := by
  induction l with
  | nil => exact fun _ _ => rfl
  | cons v rest ih => exact fun offset s => (ih _ _).trans (s.pending_writeRegister offset v)

/-! ### Every command -/

/-- Every command answers a next state. -/
theorem exec_next (c : Instr) (s : State) : ∃ t, exec c s = .next t := by
  cases c <;> exact ⟨_, rfl⟩

/-- R138, R139: an arbitration, with the take that may come before it. -/
theorem pending_arbitration (s : State) : s.takeAhead.holdArbitration.pending = s.pending := by
  have htake : s.takeAhead.pending = s.pending := by
    rcases s.takeAhead_spec with ⟨h, -⟩ | ⟨h, -⟩ <;> simp [h]
  refine Eq.trans ?_ htake
  unfold State.holdArbitration; split
  · split <;> simp
  · rfl

/-- Whatever a command does, the queue stays: each of its named operations leaves it, in whichever case. -/
theorem exec_pending (c : Instr) (h : exec c s = .next t) : t.pending = s.pending := by
  cases c with
  | arm =>
    cases h; refine pending_runCommand fun w u => ?_
    unfold armBody; split
    · rfl
    · exact pending_armClaim w u
  | rearm =>
    cases h; refine pending_runCommand fun w u => ?_
    unfold rearmBody; split
    · simp
    · exact pending_checked (by simp [rearmEffect])
  | cancel =>
    cases h; refine pending_runCommand fun w u => ?_
    unfold cancelBody; split
    · simp
    · exact pending_checked (by simp [cancelEffect])
  | kick =>
    cases h; refine pending_runCommand fun w u => ?_
    unfold kickBody; split
    · simp
    · exact pending_checked (by simp [kickEffect])
  | query => cases h; exact pending_runCommand fun w u => by unfold queryBody; split <;> simp
  | readStatus => cases h; exact pending_runCommand fun w u => by simp [readStatusBody]
  | closeSubmissionRing =>
    cases h; refine pending_runCommand fun w u => ?_
    unfold closeSubmissionBody; dsimp only; split
    · simp
    · split <;> simp [State.closeSubmission]
  | openSubmissionRing | openCompletionRing | closeCompletionRing | createDomain =>
    cases h; exact pending_runCommand fun _ _ => pending_checked rfl
  | restartCompletionRing =>
    cases h; exact pending_runCommand fun _ _ => pending_checked (by simp only [restartEffect]; split <;> simp)
  | setTimebase => cases h; exact pending_runCommand fun _ _ => pending_checked (by simp [setTimebaseEffect])
  | destroyDomain =>
    cases h; refine pending_runCommand fun w u => ?_
    unfold destroyBody; dsimp only; split
    · exact pending_checkedJob rfl
    · exact pending_checked rfl
  | pauseDomain =>
    cases h; refine pending_runCommand fun w u => ?_
    unfold pauseBody
    exact pending_checked rfl
  | resumeDomain =>
    cases h; exact pending_runCommand fun _ _ => pending_checked (by unfold resumeEffect; dsimp only; split <;> simp)
  | exportDomain | importDomain => cases h; exact pending_runCommand fun _ _ => pending_checkedJob (by simp)
  | abortTransfer =>
    cases h; refine pending_runCommand fun w u => ?_
    unfold abortBody; split
    · simp
    · split <;> simp
  | allocation =>
    cases h; split
    · split
      · exact pending_armClaim _ _
      · rfl
    · rfl
    · rfl
  | enableSet => cases h; exact s.pending_writeEnable1
  | enableClear => cases h; exact s.pending_writeEnable0
  | deviceTimeLowRead offset width =>
    cases h
    obtain ⟨latch, hr⟩ := s.readAccess_spec offset width
    simp [hr]
  | registerWrite offset width value =>
    cases h; split
    case h_4 => exact State.pending_writeWords _ offset s
    all_goals rfl
  | arbitration => cases h; exact pending_arbitration s
  | srTailWrite | crHeadWrite | deviceReset | powerOnReset => cases h; simp
  | tickEvent | goodRun | edgeEquivalent | wheelStep | stepEnd | countTrigger | delayTrigger => cases h; split <;> simp
  | disable =>
    cases h; repeat' split
    all_goals simp [State.resetBlocks]
  | invalidKind | recordArrival | readBusError | refinEdge | loss | overflowSweep | cascade | l0Emptying | take | drain |
    eventPost | writeDone | writeFailed | destroyWalkVisit | destroyWalkEnd | exportVisit | exportRelease | importCreation =>
    cases h; repeat' split
    all_goals simp
  | transferWriteDone | transferReadDone | transferBusError =>
    cases h; split
    all_goals dsimp only
    all_goals repeat' split
    all_goals simp

/-- Settles O2: by cases on the command. -/
theorem everyCommandCompletes : Obligations.EveryCommandCompletes := by
  unfold Obligations.EveryCommandCompletes
  intro c s
  obtain ⟨t, ht⟩ := exec_next c s
  exact ⟨t, ht, exec_pending c ht⟩

end Sys2Proof.Machine
end

section
/-! The image of an EXPORT (R176, section 11.5): the places of its fields, the sum of its words, which records are well formed, and the entry that an
IMPORT makes of the record of an exported entry (R178, R183). -/

namespace Sys2Proof.Machine

variable {r : RecordBits} {e : Entry}

/-! ### Places of fields -/

theorem encodeHeader_fields (d : Fin 64) (count : Nat) (source : Byte) (divisor : Word) (start : Nat) :
    let h := encodeHeader d count source divisor start
    h.extractLsb' 0 32 = 0x7E1640A5#32 ∧ h.extractLsb' 32 16 = 1#16 ∧ h.extractLsb' 48 8 = BitVec.ofNat 8 d.val ∧ h.extractLsb' 56 8 = source ∧
      h.extractLsb' 64 32 = BitVec.ofNat 32 count ∧ h.extractLsb' 96 32 = divisor ∧ h.extractLsb' 128 64 = BitVec.ofNat 64 start ∧
      h.extractLsb' 192 64 = 0#64 := by
  simp only [encodeHeader, BitVec.extractLsb'_append_eq_of_le, BitVec.extractLsb'_append_eq_of_add_le, BitVec.extractLsb'_eq_self,
    Nat.reduceLeDiff, Nat.reduceSub, and_self, and_true]
  exact ⟨rfl, rfl⟩

theorem encodeTrailer_fields (sum : Word) (count : Nat) :
    (encodeTrailer sum count).extractLsb' 0 32 = sum ∧ (encodeTrailer sum count).extractLsb' 32 32 = BitVec.ofNat 32 count := by
  simp only [encodeTrailer, BitVec.extractLsb'_append_eq_of_le, BitVec.extractLsb'_append_eq_of_add_le, BitVec.extractLsb'_eq_self,
    Nat.reduceLeDiff, Nat.reduceSub, and_self]

theorem encodeEntry_fields (e : Entry) (start : Nat) :
    let r := encodeEntry e start
    r.extractLsb' 0 8 = BitVec.ofNat 8 e.kind.code ∧ r.extractLsb' 8 8 = BitVec.ofNat 8 (imagePhase e.phase).code ∧
      r.extractLsb' 16 8 = BitVec.ofNat 8 e.faultOption.toNat ∧ r.extractLsb' 24 8 = BitVec.ofNat 8 e.ring.val ∧
      r.extractLsb' 32 16 = BitVec.ofNat 16 (e.fireLimit.getD 0) ∧ r.extractLsb' 48 16 = 0#16 ∧
      r.extractLsb' 64 64 = BitVec.ofInt 64 (imageOffset e.deadline start) ∧
      r.extractLsb' 128 32 = BitVec.ofNat 32 (e.period.getD 0) ∧ r.extractLsb' 160 32 = BitVec.ofNat 32 e.totalFires ∧
      r.extractLsb' 192 64 = e.cookie := by
  simp only [encodeEntry, BitVec.extractLsb'_append_eq_of_le, BitVec.extractLsb'_append_eq_of_add_le, BitVec.extractLsb'_eq_self,
    Nat.reduceLeDiff, Nat.reduceSub, and_self]

/-- R178: an offset is bounded to what its field holds. -/
theorem toInt_imageOffset (deadline start : Nat) :
    (BitVec.ofInt 64 (imageOffset deadline start)).toInt = imageOffset deadline start := by
  refine BitVec.toInt_ofInt_eq_self (by decide) ?_ ?_ <;> unfold imageOffset <;> omega

/-- R176: the sum of a part's words, written out. -/
theorem wordSum_eq (r : RecordBits) : wordSum r = r.extractLsb' 0 32 + r.extractLsb' 32 32 + r.extractLsb' 64 32 + r.extractLsb' 96 32 +
    r.extractLsb' 128 32 + r.extractLsb' 160 32 + r.extractLsb' 192 32 + r.extractLsb' 224 32 := by
  have hfirst : 0#32 + r.extractLsb' (32 * 0) 32 = r.extractLsb' 0 32 := BitVec.zero_add _
  rw [← hfirst]
  rfl

/-! ### Well-formed records -/

/-- Section 11.6: the timer kind that a code spells has that code. -/
theorem TimerKind.code_of_ofCode {n : Nat} {k : TimerKind} (h : TimerKind.ofCode n = some k) : k.code = n := by
  unfold TimerKind.ofCode at h
  split_ifs at h <;> cases h <;> exact Eq.symm ‹_›

theorem imageFault_eq_false (r : RecordBits) : imageFault r = false ↔ (r.extractLsb' 16 8).toNat = 0 := by
  rw [imageFault, bne_eq_false_iff_eq, ← BitVec.toNat_inj]
  rfl

/-- R176: what a well-formed record is, by the codes in its fields. -/
theorem wellFormedRecord_iff (r : RecordBits) :
    let kind := (r.extractLsb' 0 8).toNat
    let phase := (r.extractLsb' 8 8).toNat
    let fault := (r.extractLsb' 16 8).toNat
    let ring := (r.extractLsb' 24 8).toNat
    let limit := (r.extractLsb' 32 16).toNat
    let period := (r.extractLsb' 128 32).toNat
    wellFormedRecord r = true ↔
      (phase = 1 ∨ phase = 3 ∨ phase = 5 ∧ kind = 2) ∧ fault ≤ 1 ∧ 1 ≤ ring ∧ ring ≤ 7 ∧
      (kind = 0 ∧ period = 0 ∧ limit = 0 ∧ fault = 0 ∨ kind = 1 ∧ period ≠ 0 ∧ fault = 0 ∨ kind = 2 ∧ period ≠ 0 ∧ limit = 0) := by
  intro kind phase fault ring limit period
  cases hkind : TimerKind.ofCode kind with
  | none =>
    have hnot : wellFormedRecord r = false := by
      unfold wellFormedRecord
      rw [show imageKind r = none from hkind]
    have hcode : kind ≠ 0 ∧ kind ≠ 1 ∧ kind ≠ 2 := by
      refine ⟨?_, ?_, ?_⟩ <;> intro h <;> rw [h] at hkind <;> cases hkind
    simp [hnot, hcode]
  | some k =>
    have hformed : wellFormedRecord r = ((phase == 1 || phase == 3 || (phase == 5 && k == .guard)) && decide (fault ≤ 1) &&
        !badIoRing ring && !misfit k period limit (imageFault r)) := by
      unfold wellFormedRecord
      rw [show imageKind r = some k from hkind]
      rfl
    rw [hformed, ← TimerKind.code_of_ofCode hkind]
    simp only [Bool.and_eq_true, Bool.or_eq_true, beq_iff_eq, decide_eq_true_iff, Bool.not_eq_true', badIoRing_eq_false, misfit_eq_false,
      imageFault_eq_false, and_assoc, or_assoc]
    cases k <;> simp [TimerKind.code, fault, period, limit]

/-- R183: the entry that an import makes of a well-formed record, by the fields of the record. -/
theorem importedEntry_eq (h : wellFormedRecord r = true) (d : Fin 64) (now : Nat) :
    let kind := (r.extractLsb' 0 8).toNat
    let limit := (r.extractLsb' 32 16).toNat
    let period := (r.extractLsb' 128 32).toNat
    importedEntry r d now =
      { phase := .held, kind := if kind = 0 then .oneshot else if kind = 1 then .periodic else .guard, domain := d
        ring := Fin.ofNat 8 (r.extractLsb' 24 8).toNat, deadline := min (2 ^ 64 - 1) ((now : Int) + (r.extractLsb' 64 64).toInt).toNat
        period := if period = 0 then none else some period, fireLimit := if limit = 0 then none else some limit
        cookie := r.extractLsb' 192 64, faultOption := decide ((r.extractLsb' 16 8).toNat = 1), totalFires := (r.extractLsb' 160 32).toNat
        pendingExpiry := none, importMark := true, location := none } := by
  intro kind limit period
  obtain ⟨-, hfault, -, -, hfits⟩ := (wellFormedRecord_iff r).1 h
  have hkind : (imageKind r).getD .oneshot = if kind = 0 then .oneshot else if kind = 1 then .periodic else .guard := by
    show (TimerKind.ofCode kind).getD .oneshot = _
    rcases hfits with ⟨hk, -⟩ | ⟨hk, -⟩ | ⟨hk, -⟩ <;> simp [kind, hk, TimerKind.ofCode]
  have hfault' : imageFault r = decide ((r.extractLsb' 16 8).toNat = 1) := by
    rw [Bool.eq_iff_iff, decide_eq_true_iff, ← not_iff_not, Bool.not_eq_true, imageFault_eq_false]
    omega
  rw [importedEntry, hkind, hfault']
  rfl

/-! ### The record of an exported entry -/

/-- R2, R4, R6: what the record of a legal entry needs of it. -/
theorem Entry.imageable (h : e.legal = true) : e.ring ≠ 0 ∧ e.totalFires < 2 ^ 32 ∧ (∀ p, e.period = some p → 1 ≤ p ∧ p < 2 ^ 32) ∧
    (∀ n, e.fireLimit = some n → 1 ≤ n ∧ n < 2 ^ 16) ∧ (e.phase = .tripped → e.kind = .guard) ∧
    match e.kind with
    | .oneshot => e.period = none ∧ e.fireLimit = none ∧ e.faultOption = false
    | .periodic => e.period ≠ none ∧ e.faultOption = false
    | .guard => e.period ≠ none ∧ e.fireLimit = none := by
  obtain ⟨hranged, hfits, hplaced⟩ := Entry.legal_iff.1 h
  simp only [Entry.ranged, Bool.and_eq_true, bne_iff_ne, decide_eq_true_iff, Option.all_eq_true] at hranged
  obtain ⟨⟨⟨⟨⟨hring, -⟩, hfires⟩, hperiod⟩, hlimit⟩, -⟩ := hranged
  refine ⟨hring, Nat.lt_of_le_pred (by decide) hfires, hperiod, hlimit, fun htripped => ?_, ?_⟩
  · simp only [Entry.placed, htripped, Bool.and_eq_true, beq_iff_eq] at hplaced
    exact hplaced.2
  · revert hfits
    unfold Entry.fits
    cases e.kind <;> simp [and_assoc, Option.isSome_iff_ne_none]

/-- A field that holds 0 for none. -/
theorem ite_getD_eq {o : Option Nat} (h : ∀ n, o = some n → 1 ≤ n) : (if o.getD 0 = 0 then none else some (o.getD 0)) = o := by
  cases o with
  | none => rfl
  | some n => exact if_neg (Nat.ne_of_gt (h n rfl))

/-- The fields of a legal entry's record, as numbers. -/
theorem encodeEntry_toNat (h : e.legal = true) (start : Nat) :
    let r := encodeEntry e start
    (r.extractLsb' 0 8).toNat = e.kind.code ∧ (r.extractLsb' 8 8).toNat = (imagePhase e.phase).code ∧
      (r.extractLsb' 16 8).toNat = e.faultOption.toNat ∧ (r.extractLsb' 24 8).toNat = e.ring.val ∧
      (r.extractLsb' 32 16).toNat = e.fireLimit.getD 0 ∧ (r.extractLsb' 128 32).toNat = e.period.getD 0 ∧
      (r.extractLsb' 160 32).toNat = e.totalFires := by
  intro r
  obtain ⟨-, hfires, hperiod, hlimit, -⟩ := Entry.imageable h
  obtain ⟨fkind, fphase, ffault, fring, flimit, -, -, fperiod, ffires, -⟩ := encodeEntry_fields e start
  have hbound : ∀ {o : Option Nat} {m : Nat}, (∀ n, o = some n → 1 ≤ n ∧ n < 2 ^ m) → o.getD 0 % 2 ^ m = o.getD 0 := by
    intro o m ho
    cases o with
    | none => exact Nat.zero_mod _
    | some n => exact Nat.mod_eq_of_lt (ho n rfl).2
  refine ⟨?_, ?_, ?_, ?_, ?_, ?_, ?_⟩
  · rw [fkind]; cases e.kind <;> rfl
  · rw [fphase]; cases e.phase <;> rfl
  · rw [ffault]; cases e.faultOption <;> rfl
  · rw [fring, BitVec.toNat_ofNat, Nat.mod_eq_of_lt (by omega)]
  · rw [flimit, BitVec.toNat_ofNat, hbound hlimit]
  · rw [fperiod, BitVec.toNat_ofNat, hbound hperiod]
  · rw [ffires, BitVec.toNat_ofNat, Nat.mod_eq_of_lt hfires]

/-- R176, R178: the record of a legal entry is well formed. -/
theorem wellFormedRecord_encodeEntry (h : e.legal = true) (start : Nat) : wellFormedRecord (encodeEntry e start) = true := by
  obtain ⟨hring, -, hperiod, -, htripped, hfits⟩ := Entry.imageable h
  obtain ⟨nkind, nphase, nfault, nring, nlimit, nperiod, -⟩ := encodeEntry_toNat h start
  refine (wellFormedRecord_iff _).2 ?_
  rw [nkind, nphase, nfault, nring, nlimit, nperiod]
  have hused : ∀ o : Option Nat, o ≠ none → (∀ n, o = some n → 1 ≤ n ∧ n < 2 ^ 32) → o.getD 0 ≠ 0 := fun o ho hn => by
    cases o with
    | none => exact absurd rfl ho
    | some n => exact Nat.ne_of_gt (hn n rfl).1
  refine ⟨?_, Bool.toNat_le _, ?_, Nat.le_of_lt_succ e.ring.isLt, ?_⟩
  · cases hphase : e.phase with
    | armed | due | fired => exact .inl rfl
    | held => exact .inr (.inl rfl)
    | tripped => exact .inr (.inr ⟨rfl, by rw [htripped hphase]; rfl⟩)
  · exact Nat.one_le_iff_ne_zero.2 fun hzero => hring (Fin.ext hzero)
  · cases hkind : e.kind with
    | oneshot =>
      simp only [hkind] at hfits
      obtain ⟨hp, hl, hf⟩ := hfits
      exact .inl ⟨rfl, by rw [hp]; rfl, by rw [hl]; rfl, by rw [hf]; rfl⟩
    | periodic =>
      simp only [hkind] at hfits
      obtain ⟨hp, hf⟩ := hfits
      exact .inr (.inl ⟨rfl, hused _ hp hperiod, by rw [hf]; rfl⟩)
    | guard =>
      simp only [hkind] at hfits
      obtain ⟨hp, hl⟩ := hfits
      exact .inr (.inr ⟨rfl, hused _ hp hperiod, by rw [hl]; rfl⟩)

/-- R178, R183: the import of a legal entry's record keeps its timer. -/
theorem importedEntry_encodeEntry (h : e.legal = true) (start now : Nat) (d : Fin 64) : importedEntry (encodeEntry e start) d now =
    { phase := .held, kind := e.kind, domain := d, ring := e.ring
      deadline := min (2 ^ 64 - 1) ((now : Int) + imageOffset e.deadline start).toNat
      period := e.period, fireLimit := e.fireLimit, cookie := e.cookie, faultOption := e.faultOption, totalFires := e.totalFires
      pendingExpiry := none, importMark := true, location := none } := by
  obtain ⟨-, -, hperiod, hlimit, -, -⟩ := Entry.imageable h
  obtain ⟨nkind, -, nfault, nring, nlimit, nperiod, nfires⟩ := encodeEntry_toNat h start
  obtain ⟨-, -, -, -, -, -, foffset, -, -, fcookie⟩ := encodeEntry_fields e start
  have hkind : (if e.kind.code = 0 then TimerKind.oneshot else if e.kind.code = 1 then .periodic else .guard) = e.kind := by
    cases e.kind <;> rfl
  have hfault : decide (e.faultOption.toNat = 1) = e.faultOption := by cases e.faultOption <;> rfl
  have hring : Fin.ofNat 8 e.ring.val = e.ring := Fin.ext (Nat.mod_eq_of_lt e.ring.isLt)
  rw [importedEntry_eq (wellFormedRecord_encodeEntry h start)]
  simp only [nkind, nfault, nring, nlimit, nperiod, nfires, foffset, fcookie, toInt_imageOffset, hkind, hfault, hring,
    ite_getD_eq fun n hn => (hperiod n hn).1, ite_getD_eq fun n hn => (hlimit n hn).1]

/-- Settles O57: the places, the sum, the well-formed records, and the round trip of an exported entry. -/
theorem imageKeepsTimers : Obligations.ImageKeepsTimers := by
  unfold Obligations.ImageKeepsTimers
  refine ⟨encodeHeader_fields, encodeTrailer_fields, fun e start _ => ?_, fun r => ?_, fun e start now d hlegal _ =>
    ⟨wellFormedRecord_encodeEntry hlegal start, importedEntry_encodeEntry hlegal start now d⟩⟩
  · intro r offset
    obtain ⟨fkind, fphase, ffault, fring, flimit, fzero, foffset, fperiod, ffires, fcookie⟩ := encodeEntry_fields e start
    refine ⟨fkind.trans ?_, fphase.trans ?_, ffault.trans ?_, fring, flimit, fzero, ?_, fperiod, ffires, fcookie⟩
    · cases e.kind <;> rfl
    · cases e.phase <;> rfl
    · cases e.faultOption <;> rfl
    · rw [foffset]
      exact toInt_imageOffset e.deadline start
  · intro kind phase fault ring limit period
    exact ⟨wordSum_eq r, wellFormedRecord_iff r, fun h => ⟨rfl, fun d now => importedEntry_eq h d now⟩⟩

end Sys2Proof.Machine
end

section
/-! The tail register of a submission ring (R135, R143), and the end of the read of its record (R138, R141, R142, R146, R148). -/

namespace Sys2Proof.Machine

variable {s : State} {i : Fin 8} {f : Fetch}

/-! ### The tail register -/

theorem State.writeTail_of_not (h : s.host.device ≠ .ready ∨ (s.sr i).state ≠ .active) (v : Nat) : s.writeTail i v = s :=
  if_neg fun hc => h.elim (· (State.ready_iff.1 hc.1)) (· hc.2)

/-- R135: a tail write that is honoured. -/
theorem State.writeTail_of_active (hready : s.host.device = .ready) (h : (s.sr i).state = .active) (v : Nat) : s.writeTail i v =
    if v < (s.sr i).size then s.updateSr i (fun r => { r with tail := v })
    else if i = 0 then { s with host := { s.host with device := .failed, fatalCause := .badAdminIndex } }
    else (s.updateSr i (fun r => { r with state := .error, cause := .badIndex })).raise .ringError (.submissionRing i) .badIndex := by
  rw [State.writeTail, if_pos ⟨State.ready_iff.2 hready, h⟩, State.fatal, if_pos (State.ready_iff.2 hready)]

/-- Settles O40: whether the write is honoured, and if so by the index and the ring. -/
theorem tailWriteSetsTail : Obligations.TailWriteSetsTail := by
  unfold Obligations.TailWriteSetsTail
  intro s i v
  have hexec : exec (.srTailWrite i v) s = .next (s.writeTail i v.toNat) := rfl
  rw [hexec]
  refine ⟨fun h => by rw [State.writeTail_of_not h], fun hready hactive => ?_⟩
  rw [State.writeTail_of_active hready hactive]
  exact ⟨fun hv => by rw [if_pos hv], fun hv hi => by rw [if_neg (Nat.not_lt.2 hv), if_neg hi],
    fun hv hi => by rw [if_neg (Nat.not_lt.2 hv), if_pos hi]⟩

/-! ### The end of a read -/

/-- The state in which the fetch read is no longer in flight and the path is `p`. -/
def State.readEnded (s : State) (p : FetchPath) : State := (s.endDma DmaRequest.ofFetcher).setPath p

theorem exec_fetchRead_of_not_reading (h : ∀ f, s.fetcher.path ≠ .reading f) (record : CommandBits) :
    exec (.recordArrival record) s = .next s ∧ exec .readBusError s = .next s := by
  cases hp : s.fetcher.path with
  | reading f => exact absurd hp (h f)
  | idle | delivered f =>
    constructor
    · show execRecordArrival record s = _
      simp [execRecordArrival, hp]
    · show execReadBusError s = _
      simp [execReadBusError, hp]

/-- R141, R148: the end of a read that brings its record. -/
theorem exec_recordArrival (h : s.fetcher.path = .reading f) (record : CommandBits) : exec (.recordArrival record) s = .next
    (if s.ready then
      { ((s.endDma DmaRequest.ofFetcher).updateSr f.source (·.advance f.ringClosed)).setPath (.delivered f) with
        executor := { s.executor with input := some { record := record, source := f.source, ring := f.ring } } }
    else s.readEnded .idle) := by
  show execRecordArrival record s = _
  simp only [execRecordArrival, h]
  rfl

/-- R142, R143, R148: the end of a read in a bus error. -/
theorem exec_readBusError (h : s.fetcher.path = .reading f) : exec .readBusError s = .next
    (if s.ready then
      if f.source = 0 then (s.readEnded .idle).fatal .sr0ReadError else (s.readEnded .idle).readFailed f
    else s.readEnded .idle) := by
  show execReadBusError s = _
  simp only [execReadBusError, h]
  rfl

/-- R141: the head after the fetched record's slot is freed. -/
theorem SubmissionRing.advance_eq (r : SubmissionRing) (closed : Bool) : r.advance closed =
    if r.state = .closed ∨ closed then r else { r with head := if r.head + 1 < r.size then r.head + 1 else 0 } := by
  unfold SubmissionRing.advance
  by_cases h : r.head + 1 < r.size
  · rw [if_pos h, if_neg (Nat.not_le.2 h)]
  · rw [if_neg h, if_pos (Nat.not_lt.1 h)]

/-- R142: an ACTIVE ring fails when its read does, unless it has become CLOSED since. -/
theorem SubmissionRing.failRead_eq (r : SubmissionRing) (closed : Bool) : r.failRead closed =
    if r.state = .active ∧ !closed then { r with state := .error, cause := .busError } else r := rfl

/-- R142: a failed read leaves a ring CLOSING exactly where it was. -/
theorem SubmissionRing.failRead_closing (r : SubmissionRing) (closed : Bool) : (r.failRead closed).state = .closing ↔ r.state = .closing := by
  rw [SubmissionRing.failRead_eq]
  split
  · rename_i h; simp [h.1]
  · rfl

/-- The state in which the reservation of a failed read is returned, RING_ERROR raised, and an ACTIVE ring in ERROR (R142). -/
def State.readReturned (s : State) (f : Fetch) : State :=
  (((s.readEnded .idle).updateCr f.ring (fun c => { c with reserved := c.reserved - 1 })).updateSr f.source (·.failRead f.ringClosed)).raise
    .ringError (.submissionRing f.source) .busError

theorem State.readReturned_closing (s : State) (f : Fetch) :
    ((s.readReturned f).sr f.source).state = .closing ↔ (s.sr f.source).state = .closing := by
  have hring : (s.readReturned f).sr f.source = (s.sr f.source).failRead f.ringClosed := by simp [State.readReturned, State.readEnded]
  rw [hring, SubmissionRing.failRead_closing]

/-- R121: without a held completion nothing is handed. -/
theorem State.handHeld_of_none (h : s.executor.held = none) : s.handHeld = s := by
  rw [State.handHeld, h]

/-- R121: the held completion is handed to the ring that holds its reservation. -/
theorem State.handHeld_of_some {held : HeldCompletion} (h : s.executor.held = some held) : s.handHeld =
    ({ s with executor := { s.executor with held := none } } : State).handCompletion held.ring held.completion := by
  rw [State.handHeld, h]

/-- Settles O45: by the path, the device state and, for a bus error, the ring whose read it was. -/
theorem fetchReadEnds : Obligations.FetchReadEnds := by
  unfold Obligations.FetchReadEnds
  intro s record
  refine ⟨fun h => exec_fetchRead_of_not_reading h record, fun f hf => ?_⟩
  intro i q ended returned
  rw [exec_recordArrival hf, exec_readBusError hf]
  refine ⟨fun hdevice => ?_, fun hready => ⟨?_, fun hi => ?_, fun hi hq => ?_, fun hi hq => ?_⟩⟩
  · have hnot : ¬ s.ready = true := mt State.ready_iff.1 hdevice
    rw [if_neg hnot, if_neg hnot]
    exact ⟨rfl, rfl⟩
  all_goals rw [if_pos (State.ready_iff.2 hready)]
  · rw [← SubmissionRing.advance_eq]
    rfl
  · have hfatal : (s.readEnded .idle).ready = true := State.ready_iff.2 hready
    rw [if_pos hi, State.fatal, if_pos hfatal]
    rfl
  all_goals
    have hfailed : (s.readEnded .idle).readFailed f = (s.readReturned f).finishClosing i := rfl
    rw [if_neg hi, hfailed]
  · rw [State.finishClosing_of_not (mt (s.readReturned_closing f).1 hq)]
    rfl
  · intro closed
    rw [State.finishClosing_of_closing ((s.readReturned_closing f).2 hq)]
    exact ⟨fun hnone => congrArg _ (State.handHeld_of_none hnone), fun held hsome => congrArg _ (State.handHeld_of_some hsome)⟩

end Sys2Proof.Machine
end

section
/-! What most commands do to the rings and the requests in flight: changes of the ring records that keep them legal (R133, R151), and requests of the
Completion Poster, begun and ended (R154, R161, R163). -/

namespace Sys2Proof.Machine

variable {R : Prop} {s t u : State}

/-! ### One ring record -/

theorem ringSizes_pos {n : Nat} (h : ringSizes.contains n = true) : 0 < n := by
  have hall : ∀ n ∈ ringSizes, 0 < n := by decide
  exact hall n (List.contains_iff_mem.1 h)

theorem ringSizes_contains_of_not_bad {n : Nat} (h : badSize n = false) : ringSizes.contains n = true := by
  simpa [badSize] using h

/-- R133, R135: what it is for a submission ring record to be legal. -/
theorem SubmissionRing.legal_iff (r : SubmissionRing) : r.legal = true ↔
    r.state = .closed ∨ ringSizes.contains r.size = true ∧ r.head < r.size ∧ r.tail < r.size := by
  simp [SubmissionRing.legal, and_assoc]

/-- R151, R155: what it is for a completion ring record to be legal. -/
theorem CompletionRing.legal_iff (r : CompletionRing) : r.legal = true ↔
    r.state = .closed ∨ ringSizes.contains r.size = true ∧ r.head < r.size ∧ r.tail < r.size ∧ (r.head + r.unconsumed) % r.size = r.tail := by
  simp [CompletionRing.legal, and_assoc]

/-- R141: the head goes on to the next slot. -/
theorem SubmissionRing.advance_legal {r : SubmissionRing} (h : r.legal = true) (closed : Bool) : (r.advance closed).legal = true := by
  unfold SubmissionRing.advance
  split
  · exact h
  · rename_i hopen
    obtain ⟨hstate, -⟩ := not_or.1 hopen
    obtain ⟨hsize, -, htail⟩ := (r.legal_iff.1 h).resolve_left hstate
    refine (SubmissionRing.legal_iff _).2 (.inr ⟨hsize, ?_, htail⟩)
    show (if r.size ≤ r.head + 1 then 0 else r.head + 1) < r.size
    split
    · exact ringSizes_pos hsize
    · omega

/-- R142: a failed read changes the state of an open ring only. -/
theorem SubmissionRing.failRead_legal {r : SubmissionRing} (h : r.legal = true) (closed : Bool) : (r.failRead closed).legal = true := by
  unfold SubmissionRing.failRead
  split
  · rename_i hactive
    exact (SubmissionRing.legal_iff _).2 (.inr ((r.legal_iff.1 h).resolve_left (by simp [hactive.1])))
  · exact h

theorem openedSubmission_legal {r : CommandBits} (h : badSize (recLengthA r) = false) : (openedSubmission r).legal = true :=
  have hsize := ringSizes_contains_of_not_bad h
  (SubmissionRing.legal_iff _).2 (.inr ⟨hsize, ringSizes_pos hsize, ringSizes_pos hsize⟩)

theorem openedCompletion_legal {r : CommandBits} (h : badSize (recLengthA r) = false) : (openedCompletion r).legal = true :=
  have hsize := ringSizes_contains_of_not_bad h
  (CompletionRing.legal_iff _).2 (.inr ⟨hsize, ringSizes_pos hsize, ringSizes_pos hsize, Nat.zero_mod _⟩)

theorem adminSubmission_legal {a : AdminRegisters} (h : badSize a.srSize.toNat = false) : (adminSubmission a).legal = true :=
  have hsize := ringSizes_contains_of_not_bad h
  (SubmissionRing.legal_iff _).2 (.inr ⟨hsize, ringSizes_pos hsize, ringSizes_pos hsize⟩)

theorem adminCompletion_legal {a : AdminRegisters} (h : badSize a.crSize.toNat = false) : (adminCompletion a).legal = true :=
  have hsize := ringSizes_contains_of_not_bad h
  (CompletionRing.legal_iff _).2 (.inr ⟨hsize, ringSizes_pos hsize, ringSizes_pos hsize, Nat.zero_mod _⟩)

/-- R154: one record more is taken for writing, and the tail goes on by one with it. -/
theorem CompletionRing.advance_legal {r : CompletionRing} (h : r.legal = true) (reserve : Bool) : (r.advance reserve).legal = true := by
  rcases r.legal_iff.1 h with hclosed | ⟨hsize, hhead, htail, hcount⟩
  · exact (CompletionRing.legal_iff _).2 (.inl hclosed)
  have hnext : (r.head + (r.unconsumed + 1)) % r.size = if r.size ≤ r.tail + 1 then 0 else r.tail + 1 := by
    rw [← Nat.add_assoc, ← Nat.mod_add_mod, hcount]
    split
    · rename_i hlast
      rw [show r.tail + 1 = r.size by omega, Nat.mod_self]
    · exact Nat.mod_eq_of_lt (by omega)
  refine (CompletionRing.legal_iff _).2 (.inr ⟨hsize, hhead, ?_, hnext⟩)
  show (if r.size ≤ r.tail + 1 then 0 else r.tail + 1) < r.size
  exact hnext ▸ Nat.mod_lt _ (ringSizes_pos hsize)

/-- R162: a notification leaves the indices. -/
theorem CompletionRing.notify_legal (r : CompletionRing) : r.notify.legal = r.legal := by
  unfold CompletionRing.notify; split <;> rfl

/-- R155: a good head releases the records up to it. -/
theorem CompletionRing.release_legal {r : CompletionRing} (h : r.legal = true) (hopen : r.state ≠ .closed) {head : Nat}
    (hgood : r.goodHead head = true) : ({ r with head := head, unconsumed := r.unconsumed - r.released head } : CompletionRing).legal = true := by
  obtain ⟨hsize, hhead, htail, hcount⟩ := (r.legal_iff.1 h).resolve_left hopen
  obtain ⟨hlt, hle⟩ : head < r.size ∧ r.released head ≤ r.unconsumed := by simpa [CompletionRing.goodHead] using hgood
  have hreached : (r.head + r.released head) % r.size = head := by
    rw [CompletionRing.released, Nat.add_mod_mod, show r.head + (head + r.size - r.head) = head + r.size by omega, Nat.add_mod_right,
      Nat.mod_eq_of_lt hlt]
  refine (CompletionRing.legal_iff _).2 (.inr ⟨hsize, hlt, htail, ?_⟩)
  calc (head + (r.unconsumed - r.released head)) % r.size
      = ((r.head + r.released head) % r.size + (r.unconsumed - r.released head)) % r.size := by rw [hreached]
    _ = (r.head + r.released head + (r.unconsumed - r.released head)) % r.size := Nat.mod_add_mod _ _ _
    _ = (r.head + r.unconsumed) % r.size := by rw [Nat.add_assoc, Nat.add_sub_cancel' hle]
    _ = r.tail := hcount

/-- R155: a bad head fails a ring that is open. -/
theorem CompletionRing.failHead_legal {r : CompletionRing} (h : r.legal = true) (hopen : r.state ≠ .closed) : r.failHead.legal = true :=
  (CompletionRing.legal_iff _).2 (.inr ((r.legal_iff.1 h).resolve_left hopen))

/-- R166: a failed write changes the state of an ACTIVE ring only. -/
theorem CompletionRing.failWrite_legal {r : CompletionRing} (h : r.legal = true) : r.failWrite.legal = true := by
  unfold CompletionRing.failWrite
  split
  · rename_i hactive
    exact (CompletionRing.legal_iff _).2 (.inr ((r.legal_iff.1 h).resolve_left (by simp [hactive])))
  · exact h

/-- R169: a restart empties an open ring. -/
theorem CompletionRing.restarted_legal {r : CompletionRing} (h : r.legal = true) (hopen : r.state ≠ .closed) (base : DWord) :
    (r.restarted base).legal = true := by
  obtain ⟨hsize, -, -, -⟩ := (r.legal_iff.1 h).resolve_left hopen
  exact (CompletionRing.legal_iff _).2 (.inr ⟨hsize, ringSizes_pos hsize, ringSizes_pos hsize, Nat.zero_mod _⟩)

theorem CompletionRing.restoreFront_legal (r : CompletionRing) (k : Nat) : (r.restoreFront k).legal = r.legal := by
  unfold CompletionRing.restoreFront; split <;> rfl

/-! ### The ring records together -/

/-- Every ring record that was legal is legal. -/
structure State.RingsKept (s t : State) : Prop where
  sr : ∀ i, (s.sr i).legal = true → (t.sr i).legal = true
  cr : ∀ c, (s.cr c).legal = true → (t.cr c).legal = true

theorem State.RingsKept.ringsLegal (h : s.RingsKept t) : s.RingsLegal → t.RingsLegal := fun ⟨hsr, hcr⟩ =>
  ⟨fun i => h.sr i (hsr i), fun c => h.cr c (hcr c)⟩

theorem State.RingsKept.trans (h : s.RingsKept t) (h' : t.RingsKept u) : s.RingsKept u :=
  ⟨fun i => h'.sr i ∘ h.sr i, fun c => h'.cr c ∘ h.cr c⟩

theorem State.RingsKept.of_eq (hsr : t.fetcher.rings = s.fetcher.rings) (hcr : t.poster.rings = s.poster.rings) : s.RingsKept t :=
  ⟨fun i => by rw [State.sr_congr hsr]; exact id, fun c => by rw [State.cr_congr hcr]; exact id⟩

theorem State.RingsKept.refl (s : State) : s.RingsKept s := .of_eq rfl rfl

theorem State.RingsKept.updateSr {i : Fin 8} {f : SubmissionRing → SubmissionRing} (h : (s.sr i).legal = true → (f (s.sr i)).legal = true) :
    s.RingsKept (s.updateSr i f) := by
  refine ⟨fun j => ?_, fun _ => id⟩
  rw [State.sr_updateSr]
  split
  · rename_i hj; exact hj ▸ h
  · exact id

theorem State.RingsKept.updateCr {c : Fin 8} {f : CompletionRing → CompletionRing} (h : (s.cr c).legal = true → (f (s.cr c)).legal = true) :
    s.RingsKept (s.updateCr c f) := by
  refine ⟨fun _ => id, fun j => ?_⟩
  rw [State.cr_updateCr]
  split
  · rename_i hj; exact hj ▸ h
  · exact id

/-- R150, R173: the records of a reset or a disable are those of CLOSED rings. -/
theorem State.RingsKept.reset (hf : t.fetcher = .reset) (hp : t.poster = .reset) : s.RingsKept t :=
  ⟨fun i _ => by rw [State.sr_congr (s := State.reset) (by rw [hf]; rfl)]; exact State.reset_ringsLegal.1 i,
    fun c _ => by rw [State.cr_congr (s := State.reset) (by rw [hp]; rfl)]; exact State.reset_ringsLegal.2 c⟩

/-! ### The changes -/

/-- R138: a fetch read is in flight. -/
def FetchPath.isReading : FetchPath → Bool
  | .reading _ => true
  | .idle | .delivered _ => false

/-- No request is issued and none ends, no job begins, changes or ends, and the ring records stay legal. -/
structure State.IssuesNone (s t : State) : Prop where
  dma : t.host.dma = s.host.dma
  job : t.transfer.job = s.transfer.job
  path : t.fetcher.path.isReading = s.fetcher.path.isReading
  rings : s.RingsKept t

/-- One change by a command that serves neither the fetch path nor a transfer. The Completion Poster issues requests only given `R`. -/
inductive State.PostStep (R : Prop) (s : State) : State → Prop
  | still {t : State} (h : s.IssuesNone t) : PostStep R s t
  /-- R154, R163: a record or message write is issued. -/
  | post {q : DmaRequest} (hR : R) (hq : q.ofPoster = true) : PostStep R s (s.pushDma q)
  /-- R161, R166: the oldest record or message write ends. -/
  | ended : PostStep R s (s.endDma DmaRequest.ofPoster)
  /-- R193: a reset or a disable. -/
  | reset : PostStep R s s.resetBlocks

/-- What a command that serves neither the fetch path nor a transfer can do to the rings and the requests in flight. -/
def State.Posts (R : Prop) : State → State → Prop := Relation.ReflTransGen (State.PostStep R)

theorem State.Posts.refl (s : State) : s.Posts R s := Relation.ReflTransGen.refl

theorem State.Posts.trans (h : s.Posts R t) (h' : t.Posts R u) : s.Posts R u := Relation.ReflTransGen.trans h h'

theorem State.PostStep.posts (h : s.PostStep R t) : s.Posts R t := Relation.ReflTransGen.single h

theorem State.IssuesNone.posts (h : s.IssuesNone t) : s.Posts R t := (State.PostStep.still h).posts

/-- What touches neither the requests in flight nor the rings, the path and the job. -/
theorem State.Posts.of_frame (hd : t.host.dma = s.host.dma) (hf : t.fetcher = s.fetcher) (hp : t.poster.rings = s.poster.rings)
    (hj : t.transfer = s.transfer) : s.Posts R t :=
  State.IssuesNone.posts ⟨hd, by rw [hj], by rw [hf], .of_eq (by rw [hf]) hp⟩

theorem State.Posts.after_frame (h : t.Posts R u) (hd : t.host.dma = s.host.dma) (hf : t.fetcher = s.fetcher)
    (hp : t.poster.rings = s.poster.rings) (hj : t.transfer = s.transfer) : s.Posts R u :=
  (State.Posts.of_frame hd hf hp hj).trans h

theorem State.posts_updateSr {i : Fin 8} {f : SubmissionRing → SubmissionRing} (h : (s.sr i).legal = true → (f (s.sr i)).legal = true) :
    s.Posts R (s.updateSr i f) := State.IssuesNone.posts ⟨rfl, rfl, rfl, .updateSr h⟩

theorem State.posts_updateCr {c : Fin 8} {f : CompletionRing → CompletionRing} (h : (s.cr c).legal = true → (f (s.cr c)).legal = true) :
    s.Posts R (s.updateCr c f) := State.IssuesNone.posts ⟨rfl, rfl, rfl, .updateCr h⟩

theorem State.posts_pushDma {q : DmaRequest} (hR : R) (hq : q.ofPoster = true) : s.Posts R (s.pushDma q) := (State.PostStep.post hR hq).posts

theorem State.Posts.ringsKept (h : s.Posts R t) : s.RingsKept t := by
  induction h with
  | refl => exact .refl s
  | tail _ h ih =>
    refine ih.trans ?_
    cases h with
    | still h => exact h.rings
    | post _ _ | ended => exact .of_eq rfl rfl
    | reset => exact .reset rfl rfl

/-- Where the Completion Poster issues nothing, requests only end. -/
theorem State.Posts.dma_sublist (h : s.Posts False t) : List.Sublist t.host.dma s.host.dma := by
  induction h with
  | refl => exact .refl _
  | tail _ h ih =>
    refine List.Sublist.trans ?_ ih
    cases h with
    | still h => rw [h.dma]
    | post hR _ => exact hR.elim
    | ended => exact List.eraseP_sublist
    | reset => exact List.nil_sublist _

/-! ### Timers -/

/-- R14, R15, R160: a free takes the entry from its ring's counts and lists. -/
theorem State.posts_freeEntry (s : State) (k : Nat) : s.Posts R (s.freeEntry k) := by
  refine State.IssuesNone.posts ⟨by simp, by simp, by simp, fun i => ?_, fun c => ?_⟩
  · rw [State.sr_congr (s := s) (t := s.freeEntry k) (by simp)]; exact id
  · cases he : s.entryAt k with
    | none => rw [State.freeEntry, he]; exact id
    | some e =>
      obtain ⟨-, -, -, -, -, -, -, hring, hothers, -⟩ := State.freeEntry_freed he
      by_cases hc : c = e.ring
      · rw [hc, hring]; split <;> exact id
      · rw [hothers c hc]; exact id

theorem State.posts_freeAll (s : State) (l : List Nat) : s.Posts R (s.freeAll l) :=
  State.forEach_ind (Q := s.Posts R) (.refl s) (fun _ h => h.trans (.of_frame rfl rfl rfl rfl)) fun k t _ h => h.trans (t.posts_freeEntry k)

/-- R13, R15: an allocation counts the entry for its ring. -/
theorem State.posts_allocateHead (s : State) (c : Fin 8) : s.Posts R (s.allocateHead c) :=
  .after_frame (State.posts_updateCr id) rfl rfl rfl rfl

/-! ### Completions -/

theorem State.posts_sendMessage (hR : R) (c : Fin 8) : s.Posts R (s.sendMessage c) := by
  unfold State.sendMessage
  exact (State.posts_pushDma hR rfl).trans (State.posts_updateCr id)

/-- R154, R162: a take for writing issues the record's write, and the message's when it falls due. -/
theorem State.posts_takeForWriting (hR : R) (c : Fin 8) (reserve : Bool) (record : Completion) (origin : RecordOrigin) :
    s.Posts R (s.takeForWriting c reserve record origin) := by
  have hwritten : ∀ q : DmaRequest, q.ofPoster = true → s.Posts R (({ s.pushDma q with
      poster := { s.poster with writes := s.poster.writes + 1 } } : State).updateCr c (fun r => (r.advance reserve).notify)) := fun q hq =>
    (State.posts_pushDma hR hq).trans (.after_frame
      (State.posts_updateCr fun h => (CompletionRing.notify_legal _).trans (CompletionRing.advance_legal h reserve)) rfl rfl rfl rfl)
  unfold State.takeForWriting
  dsimp only
  split
  · exact (hwritten _ rfl).trans (State.posts_sendMessage hR c)
  · exact hwritten _ rfl

/-- R156, R171: a completion is taken for writing in READY only. -/
theorem State.posts_handCompletion (h : s.ready = true → R) (c : Fin 8) (record : Completion) : s.Posts R (s.handCompletion c record) := by
  unfold State.handCompletion
  split
  · rename_i hready; exact State.posts_takeForWriting (h hready.1) c true record .completion
  · exact State.posts_updateCr id

theorem State.posts_reply (h : s.ready = true → R) (k : Ticket) (r : Reply) : s.Posts R (s.reply k r) := State.posts_handCompletion h _ _

theorem State.posts_finishClosing (h : s.ready = true → R) (i : Fin 8) : s.Posts R (s.finishClosing i) := by
  unfold State.finishClosing State.handHeld
  split
  · have hclosed : s.Posts R (s.updateSr i (fun _ => SubmissionRing.reset)) := State.posts_updateSr fun _ => rfl
    split
    · exact hclosed
    · exact hclosed.trans (.after_frame (State.posts_handCompletion (by exact h) _ _) rfl rfl rfl rfl)
  · exact .refl s

theorem State.posts_endCommand (h : s.ready = true → R) (k : Ticket) : s.Posts R (s.endCommand k) :=
  .after_frame (State.posts_finishClosing (by exact h) _) rfl rfl rfl rfl

theorem State.posts_answer (h : s.ready = true → R) (k : Ticket) (r : Reply) : s.Posts R (s.answer k r) :=
  (State.posts_reply h k r).trans (State.posts_endCommand (by rwa [State.ready_congr (s := s) (by simp)]) k)

/-! ### Commands that the executor takes -/

/-- R138: the take frees a DELIVERED path. -/
theorem State.posts_takeRecord (s : State) : s.Posts R s.takeRecord := by
  refine State.IssuesNone.posts ⟨by simp, by simp, ?_, .of_eq (by simp) (by simp)⟩
  cases h : s.takeable with
  | none => rw [State.takeRecord_of_not_takeable h]
  | some d =>
    rw [State.takeRecord_of_takeable h]
    show s.fetcher.path.onTake.isReading = _
    cases s.fetcher.path <;> rfl

/-- R106, R108: a command in hand does what its body does. -/
theorem posts_runCommand {k : CommandKind} {fieldsBad : CommandBits → Nat → Bool} {body : Taken → State → State} (h : s.ready = true → R)
    (hbody : ∀ (w : Taken) (u : State), (u.ready = true → R) → fieldsBad w.record w.takenAt = false → u.Posts R (body w u)) :
    s.Posts R (runCommand k fieldsBad body s) :=
  have htaken : s.takeRecord.ready = true → R := by simpa using h
  runCommand_ind (Q := s.Posts R) (.refl s) (fun w r _ => s.posts_takeRecord.trans (State.posts_answer htaken w.ticket r)) fun w _ _ _ hf =>
    s.posts_takeRecord.trans (hbody w _ htaken hf)

/-- R108, R109: an immediate command that passes its checks does what its effect does, and answers. -/
theorem posts_checked {k : CommandKind} {w : Taken} {checks : List (Bool × Status)} {effect : State → State × Reply} (h : s.ready = true → R)
    (hdevice : (effect s).1.host.device = s.host.device) (heffect : (∀ p ∈ checks, p.1 = false) → s.Posts R (effect s).1) :
    s.Posts R (checked k w checks effect s) :=
  checked_ind (Q := s.Posts R) (fun p => State.posts_answer h w.ticket p) fun hc =>
    (heffect hc).trans (State.posts_answer (by rwa [State.ready_congr hdevice]) _ _)

/-- R110: a job-kind command that passes its checks does what its start does, and ends. -/
theorem posts_checkedJob {k : CommandKind} {w : Taken} {checks : List (Bool × Status)} {start : State → State} (h : s.ready = true → R)
    (hdevice : (start s).host.device = s.host.device) (hstart : s.Posts R (start s)) : s.Posts R (checkedJob k w checks start s) :=
  checkedJob_ind (Q := s.Posts R) (fun p => State.posts_answer h w.ticket p) fun _ =>
    hstart.trans (State.posts_endCommand (by rwa [State.ready_congr hdevice]) _)

end Sys2Proof.Machine
end

section
/-! The commands that serve neither the fetch path nor a transfer: each does to the rings and the requests in flight only what `State.Posts` says, and
the Completion Poster issues its requests in READY only (R168, R171, R191). -/

namespace Sys2Proof.Machine

variable {R : Prop} {s t : State}

/-! ### Timer commands -/

theorem posts_armClaim (h : s.ready = true → R) (w : Taken) : s.Posts R (armClaim w s) :=
  posts_checked h (by simp [armEffect]) fun _ =>
    (s.posts_allocateHead (armEntry w.record w.takenAt).ring).trans
      (.of_frame (by simp [armEffect]) (by simp [armEffect]) (by simp [armEffect]) (by simp [armEffect]))

theorem posts_armBody (h : s.ready = true → R) (w : Taken) : s.Posts R (armBody w s) := by
  unfold armBody
  split
  · exact .of_frame rfl rfl rfl rfl
  · exact posts_armClaim h w

/-- R68, R69: an entry taken from its place and placed again touches no ring and no request. -/
theorem State.posts_replaced (s : State) (k : Nat) (e e' : Entry) : s.Posts R (((s.leavePlace k e).uncountTrip e).place k e') :=
  .of_frame (by simp) (by simp) (by simp) (by simp)

theorem posts_rearmBody (h : s.ready = true → R) (w : Taken) : s.Posts R (rearmBody w s) := by
  unfold rearmBody
  split
  · exact State.posts_answer h _ _
  · exact posts_checked h (by simp [rearmEffect]) fun _ => s.posts_replaced _ _ _

theorem posts_cancelBody (h : s.ready = true → R) (w : Taken) : s.Posts R (cancelBody w s) := by
  unfold cancelBody
  split
  · exact State.posts_answer h _ _
  · exact posts_checked h (by simp [cancelEffect]) fun _ => s.posts_freeEntry _

theorem posts_kickBody (h : s.ready = true → R) (w : Taken) : s.Posts R (kickBody w s) := by
  unfold kickBody
  split
  · exact State.posts_answer h _ _
  · exact posts_checked h (by simp [kickEffect]) fun _ => s.posts_replaced _ _ _

theorem posts_queryBody (h : s.ready = true → R) (w : Taken) : s.Posts R (queryBody w s) := by
  unfold queryBody
  split <;> exact State.posts_answer h _ _

theorem posts_allocation (h : exec .allocation s = .next t) (hR : s.ready = true → R) : s.Posts R t := by
  cases h
  split
  · split
    · exact .after_frame (posts_armClaim (by exact hR) _) rfl rfl rfl rfl
    · exact .refl s
  · exact .refl s
  · exact .refl s

/-! ### Ring commands, SET TIMEBASE and domain commands -/

theorem posts_openSubmissionBody (h : s.ready = true → R) {w : Taken} (hfields : openSubmissionFieldsBad w.record = false) :
    s.Posts R (openSubmissionBody w s) := by
  simp only [openSubmissionFieldsBad, Bool.or_eq_false_iff] at hfields
  obtain ⟨⟨⟨⟨-, hsize⟩, -⟩, -⟩, -⟩ := hfields
  exact posts_checked h rfl fun _ => State.posts_updateSr fun _ => openedSubmission_legal hsize

theorem posts_openCompletionBody (h : s.ready = true → R) {w : Taken} (hfields : openCompletionFieldsBad w.record = false) :
    s.Posts R (openCompletionBody w s) := by
  simp only [openCompletionFieldsBad, Bool.or_eq_false_iff] at hfields
  obtain ⟨⟨⟨⟨-, hsize⟩, -⟩, -⟩, -⟩ := hfields
  exact posts_checked h rfl fun _ => State.posts_updateCr fun _ => openedCompletion_legal hsize

theorem posts_closeCompletionBody (h : s.ready = true → R) (w : Taken) : s.Posts R (closeCompletionBody w s) :=
  posts_checked h rfl fun _ => State.posts_updateCr fun _ => rfl

/-- R146: a ring that becomes CLOSED stays noted with a read in flight. -/
theorem State.posts_closeSubmission (s : State) (i : Fin 8) : s.Posts R (s.closeSubmission i) := by
  refine State.Posts.trans (State.IssuesNone.posts (t := { s with fetcher := { s.fetcher with path := s.fetcher.path.noteClosed i } })
    ⟨rfl, rfl, ?_, .of_eq rfl rfl⟩) (State.posts_updateSr fun _ => rfl)
  show (s.fetcher.path.noteClosed i).isReading = _
  cases s.fetcher.path <;> rfl

theorem posts_closeSubmissionBody (h : s.ready = true → R) (w : Taken) : s.Posts R (closeSubmissionBody w s) := by
  unfold closeSubmissionBody
  dsimp only
  split
  · exact State.posts_answer h _ _
  · split
    · rename_i hactive
      have hclosing : s.Posts R (s.updateSr (recRingFin w.record) (fun ring => { ring with state := .closing })) :=
        State.posts_updateSr fun hl => (SubmissionRing.legal_iff _).2 (.inr (((s.sr _).legal_iff.1 hl).resolve_left (by simp [hactive.1])))
      exact hclosing.trans (.after_frame (State.posts_endCommand (by exact h) _) rfl rfl rfl rfl)
    · exact (s.posts_closeSubmission _).trans (State.posts_answer (by exact h) _ _)

/-- R169: the queued completions are taken for writing. -/
theorem State.posts_writeQueue (hR : R) (c : Fin 8) : s.Posts R (s.writeQueue c) := by
  unfold State.writeQueue
  exact foldl_ind (Q := s.Posts R) (State.posts_updateCr id) fun t q _ ht => ht.trans (State.posts_takeForWriting hR c true q _)

/-- R169, R171: a restart writes the queue in READY only. -/
theorem posts_restartBody (h : s.ready = true → R) (w : Taken) : s.Posts R (restartBody w s) := by
  refine posts_checked h (by unfold restartEffect; dsimp only; split <;> simp) fun hchecks => ?_
  have hopen : (s.cr (recRingFin w.record)).state ≠ .closed := by
    have hclosed := hchecks _ (List.mem_cons_self ..)
    simpa using hclosed
  have hrestarted : s.Posts R (s.updateCr (recRingFin w.record) (fun ring => ring.restarted (recAddressA w.record))) :=
    State.posts_updateCr fun hl => CompletionRing.restarted_legal hl hopen _
  unfold restartEffect
  dsimp only
  split
  · rename_i hready; exact hrestarted.trans (State.posts_writeQueue (h hready) _)
  · exact hrestarted

theorem posts_setTimebaseBody (h : s.ready = true → R) (w : Taken) : s.Posts R (setTimebaseBody w s) :=
  posts_checked h (by simp [setTimebaseEffect]) fun _ =>
    .of_frame (by simp [setTimebaseEffect]) (by simp [setTimebaseEffect]) (by simp [setTimebaseEffect]) (by simp [setTimebaseEffect])

theorem posts_createBody (h : s.ready = true → R) (w : Taken) : s.Posts R (createBody w s) :=
  posts_checked h rfl fun _ => .of_frame rfl rfl rfl rfl

theorem posts_destroyBody (h : s.ready = true → R) (w : Taken) : s.Posts R (destroyBody w s) := by
  unfold destroyBody
  dsimp only
  split
  · exact posts_checkedJob h rfl (.of_frame rfl rfl rfl rfl)
  · exact posts_checked h rfl fun _ => .of_frame rfl rfl rfl rfl

theorem posts_pauseBody (h : s.ready = true → R) (w : Taken) : s.Posts R (pauseBody w s) := by
  unfold pauseBody
  exact posts_checked h rfl fun _ => .of_frame rfl rfl rfl rfl

theorem resumeEffect_frame (r : CommandBits) (now : Nat) (s : State) : (resumeEffect r now s).1.host = s.host ∧
    (resumeEffect r now s).1.fetcher = s.fetcher ∧ (resumeEffect r now s).1.poster = s.poster ∧
    (resumeEffect r now s).1.transfer = s.transfer := by
  unfold resumeEffect
  dsimp only
  split <;> simp

theorem posts_resumeBody (h : s.ready = true → R) (w : Taken) : s.Posts R (resumeBody w s) := by
  obtain ⟨hhost, hfetcher, hposter, htransfer⟩ := resumeEffect_frame w.record w.takenAt s
  exact posts_checked h (by rw [hhost]) fun _ => .of_frame (by rw [hhost]) hfetcher (by rw [hposter]) htransfer

/-! ### The destroy walk -/

theorem posts_destroyWalkVisit {d : Fin 64} (h : exec (.destroyWalkVisit d) s = .next t) : s.Posts R t := by
  cases h
  split
  · exact .refl s
  · split
    · split
      · exact (s.posts_freeEntry _).trans (.of_frame rfl rfl rfl rfl)
      · exact .of_frame rfl rfl rfl rfl
    · exact .refl s

theorem posts_destroyWalkEnd {d : Fin 64} (h : exec (.destroyWalkEnd d) s = .next t) (hR : s.ready = true → R) : s.Posts R t := by
  cases h
  split
  · exact .refl s
  · split
    · exact .after_frame (State.posts_reply (by exact hR) _ _) rfl rfl rfl rfl
    · exact .refl s

/-! ### The register window and the device states -/

theorem State.posts_raise (s : State) (k : EventKind) (src : EventSource) (cause : ErrorCause) : s.Posts R (s.raise k src cause) :=
  .of_frame rfl rfl rfl rfl

theorem State.posts_fatal (s : State) (cause : FatalCause) : s.Posts R (s.fatal cause) := .of_frame (by simp) (by simp) (by simp) (by simp)

/-- R135: a tail below the size keeps an ACTIVE ring legal, and so does its failure. -/
theorem State.posts_writeTail (s : State) (i : Fin 8) (v : Nat) : s.Posts R (s.writeTail i v) := by
  unfold State.writeTail
  split
  · rename_i hactive
    have hopen : (s.sr i).legal = true → ringSizes.contains (s.sr i).size = true ∧ (s.sr i).head < (s.sr i).size ∧
        (s.sr i).tail < (s.sr i).size := fun hl => ((s.sr i).legal_iff.1 hl).resolve_left (by simp [hactive.2])
    split
    · rename_i hv
      refine State.posts_updateSr fun hl => ?_
      obtain ⟨hsize, hhead, -⟩ := hopen hl
      exact (SubmissionRing.legal_iff _).2 (.inr ⟨hsize, hhead, hv⟩)
    · split
      · exact s.posts_fatal _
      · exact (State.posts_updateSr fun hl => (SubmissionRing.legal_iff _).2 (.inr (hopen hl))).trans (State.posts_raise _ _ _ _)
  · exact .refl s

/-- R155: a good head keeps an open ring legal, and so does the failure by a bad one. -/
theorem State.posts_writeHead (s : State) (c : Fin 8) (v : Nat) : s.Posts R (s.writeHead c v) := by
  unfold State.writeHead
  dsimp only
  split
  · rename_i hopen
    split
    · rename_i hgood
      exact State.posts_updateCr fun hl => CompletionRing.release_legal hl hopen.2 hgood
    · split
      · exact .refl s
      · split
        · exact s.posts_fatal _
        · exact (State.posts_updateCr fun hl => CompletionRing.failHead_legal hl hopen.2).trans (State.posts_raise _ _ _ _)
  · exact .refl s

/-- R190: a valid admin configuration makes legal admin rings. -/
theorem State.posts_enableCheck (s : State) : s.Posts R s.enableCheck := by
  unfold State.enableCheck
  split
  · rename_i hvalid
    simp only [AdminRegisters.valid, Bool.and_eq_true, Bool.not_eq_true'] at hvalid
    obtain ⟨⟨⟨⟨hsr, hcr⟩, -⟩, -⟩, -⟩ := hvalid
    exact ((State.posts_updateSr fun _ => adminSubmission_legal hsr).trans (State.posts_updateCr fun _ => adminCompletion_legal hcr)).trans
      (.of_frame rfl rfl rfl rfl)
  · exact .of_frame rfl rfl rfl rfl

theorem State.posts_writeEnable1 (s : State) : s.Posts R s.writeEnable1 := by
  unfold State.writeEnable1
  split
  · exact .refl s
  · dsimp only
    split
    · exact .after_frame (State.posts_enableCheck _) rfl rfl rfl rfl
    · exact .of_frame rfl rfl rfl rfl

theorem State.posts_writeEnable0 (s : State) : s.Posts R s.writeEnable0 := by
  unfold State.writeEnable0
  split
  · dsimp only
    split <;> exact .of_frame rfl rfl rfl rfl
  · exact .refl s

theorem State.posts_deviceReset (s : State) : s.Posts R s.deviceReset := State.PostStep.reset.posts.trans (.of_frame rfl rfl rfl rfl)

theorem State.posts_writeRegister (s : State) (offset : Nat) (v : Word) : s.Posts R (s.writeRegister offset v) := by
  unfold State.writeRegister State.writeControl
  split
  · split
    · exact s.posts_deviceReset
    · split
      · exact s.posts_writeEnable1
      · exact s.posts_writeEnable0
  · split
    · exact s.posts_writeTail _ _
    · split
      · exact s.posts_writeHead _ _
      · split
        · exact .refl s
        · exact .of_frame rfl rfl rfl rfl

theorem State.posts_writeWords (l : List Word) : ∀ (offset : Nat) (s : State), s.Posts R (State.writeWords offset l s) := by
  induction l with
  | nil => exact fun _ s => .refl s
  | cons v rest ih => exact fun offset s => (s.posts_writeRegister offset v).trans (ih _ _)

theorem posts_disable (h : exec .disable s = .next t) : s.Posts R t := by
  cases h
  split
  · split
    · exact State.PostStep.reset.posts.trans (State.posts_enableCheck _)
    · exact State.PostStep.reset.posts
  · exact .refl s

/-! ### Time -/

/-- R91, R162: a tick counts for every running moderation delay, and sends the messages whose delays end. -/
theorem State.posts_tick (hR : R) (s : State) : s.Posts R s.tick := by
  have hcounted : ∀ u : State, u.Posts R { u with poster := { u.poster with rings := u.poster.rings.map CompletionRing.countTick } } := fun u =>
    State.IssuesNone.posts ⟨rfl, rfl, rfl, ⟨fun _ => id, fun c => by
      simp only [State.cr, Fin.getElem_fin, Vector.getElem_map]; exact id⟩⟩
  unfold State.tick
  exact State.forEach_ind (Q := s.Posts R) (State.Posts.trans (.of_frame (by simp) (by simp) (by simp) (by simp)) (hcounted _))
    (fun _ ht => ht.trans (.of_frame rfl rfl rfl rfl)) fun k t _ ht => ht.trans (State.posts_sendMessage hR _)

theorem State.posts_countEdge (hR : R) (s : State) : s.Posts R s.countEdge := by
  unfold State.countEdge
  split
  · exact .after_frame (State.posts_tick hR _) rfl rfl rfl rfl
  · exact .of_frame rfl rfl rfl rfl

theorem State.posts_countEdges (hR : R) (n : Nat) : ∀ s : State, s.Posts R (State.countEdges n s) := by
  induction n with
  | zero => exact fun s => .refl s
  | succ n ih => exact fun s => (s.posts_countEdge hR).trans (ih _)

theorem State.posts_goodRunEvent (hR : R) (s : State) (n : Nat) : s.Posts R (s.goodRunEvent n) := by
  unfold State.goodRunEvent
  dsimp only
  split
  case h_2 => exact .after_frame (State.posts_countEdge hR _) rfl rfl rfl rfl
  all_goals exact .of_frame rfl rfl rfl rfl

theorem State.posts_plainEdge (hR : R) (s : State) (n : Nat) : s.Posts R (s.plainEdge n) := by
  unfold State.plainEdge
  dsimp only
  split
  · exact .after_frame (State.posts_countEdge hR _) rfl rfl rfl rfl
  · exact .of_frame rfl rfl rfl rfl

theorem posts_refinEdge {n : Nat} (h : exec (.refinEdge n) s = .next t) (hR : s.ready = true → R) : s.Posts R t := by
  cases h
  split
  · rename_i hready
    split
    · exact State.posts_goodRunEvent (hR hready.1) s n
    · exact State.posts_plainEdge (hR hready.1) s n
  · exact .refl s

theorem posts_loss (h : exec .loss s = .next t) (hR : s.ready = true → R) : s.Posts R t := by
  cases h
  split
  · rename_i hready
    dsimp only
    split
    · exact .after_frame ((State.posts_countEdges (hR hready.1) _ _).trans (State.posts_raise _ _ _ _)) rfl rfl rfl rfl
    · exact .of_frame rfl rfl rfl rfl
  · exact .refl s

theorem posts_edgeEquivalent (h : exec .edgeEquivalent s = .next t) (hR : s.ready = true → R) : s.Posts R t := by
  cases h
  split
  · rename_i hready
    exact .after_frame (State.posts_countEdge (hR hready.1) _) rfl rfl rfl rfl
  · exact .refl s

/-! ### The Timing Wheel, expiry and notification -/

theorem State.posts_setEntry (s : State) (k : Nat) (e : Entry) : s.Posts R (s.setEntry k e) := .of_frame rfl rfl rfl rfl

/-- R161: the pending expiry's record is written, and a FIRED entry freed. -/
theorem State.posts_takeExpiry (hR : R) (s : State) (c : Fin 8) (k : Nat) : s.Posts R (s.takeExpiry c k) := by
  unfold State.takeExpiry
  split
  · exact .refl s
  · rename_i e _
    split
    · exact .refl s
    · rename_i p _
      have hwritten := (State.posts_takeForWriting (s := s) hR c false (expiryRecord k (s.generationAt k) e p)
        (.expiry k (s.generationAt k) p)).trans (State.posts_setEntry _ k { e with pendingExpiry := none })
      dsimp only
      split
      · exact (hwritten.trans (State.posts_freeEntry _ k)).trans (.of_frame rfl rfl rfl rfl)
      · exact hwritten

theorem State.posts_handExpiry (hR : R) (s : State) (c : Fin 8) (k : Nat) : s.Posts R (s.handExpiry c k) := by
  unfold State.handExpiry
  split
  · exact s.posts_takeExpiry hR c k
  · exact State.posts_updateCr id

/-- R50: the take of an entry: a discard, a hold or a fire. -/
theorem State.posts_takeEntry (hR : R) (s : State) (k : Nat) (e : Entry) : s.Posts R (s.takeEntry k e) := by
  unfold State.takeEntry
  split
  · exact (s.posts_freeEntry k).trans (.of_frame rfl rfl rfl rfl)
  · split
    · exact .of_frame (by simp) (by simp) (by simp) (by simp)
    · unfold State.fire
      dsimp only
      split
      · exact .after_frame (State.posts_handExpiry hR _ _ k) (by simp) (by simp) (by simp) (by simp)
      · exact .of_frame (by simp) (by simp) (by simp) (by simp)

theorem posts_take (h : exec .take s = .next t) (hR : s.ready = true → R) : s.Posts R t := by
  cases h
  split
  · rename_i hready
    split
    · exact .refl s
    · split
      · exact .refl s
      · exact s.posts_takeEntry (hR hready) _ _
  · exact .refl s

theorem posts_drain {c : Fin 8} (h : exec (.drain c) s = .next t) (hR : s.ready = true → R) : s.Posts R t := by
  cases h
  split
  · rename_i hready
    split
    · exact .refl s
    · exact (State.posts_updateCr id).trans (State.posts_takeExpiry (hR hready.1) _ c _)
  · exact .refl s

theorem posts_eventPost (h : exec .eventPost s = .next t) (hR : s.ready = true → R) : s.Posts R t := by
  cases h
  split
  · rename_i hready
    split
    · exact .refl s
    · exact .after_frame (State.posts_takeForWriting (hR hready.1) 0 false _ _) rfl rfl rfl rfl
  · exact .refl s

/-! ### The ends of the Poster's writes -/

/-- R18, R64: an entry restored from its mark counts for its ring again. -/
theorem State.posts_undoFree (s : State) (k : Nat) (m : PostingMark) (p : Option PendingExpiry) : s.Posts R (s.undoFree k m p) :=
  .after_frame (State.posts_updateCr id) rfl rfl rfl rfl

theorem State.posts_restoreFront (s : State) (c : Fin 8) (k : Nat) : s.Posts R (s.updateCr c (·.restoreFront k)) :=
  State.posts_updateCr fun h => (CompletionRing.restoreFront_legal _ k).trans h

theorem State.posts_restoreFires (s : State) (c : Fin 8) (i n k g : Nat) (p : PendingExpiry) : s.Posts R (s.restoreFires c i n k g p) := by
  unfold State.restoreFires
  split
  · split
    · unfold State.restoreMarked
      dsimp only
      split
      · exact .of_frame (by split <;> simp) (by split <;> simp) (by split <;> simp) (by split <;> simp)
      · exact (s.posts_undoFree k _ _).trans (State.posts_restoreFront _ _ k)
    · exact .refl s
  · split
    · split
      · unfold State.restoreInUse
        exact .after_frame (State.posts_restoreFront _ _ k) rfl rfl rfl rfl
      · exact .refl s
    · exact .refl s

theorem State.posts_ringWriteFailed (s : State) (c : Fin 8) : s.Posts R (s.ringWriteFailed c) :=
  (State.posts_updateCr CompletionRing.failWrite_legal).trans (State.posts_raise _ _ _ _)

theorem State.posts_writeFailed (s : State) (q : DmaRequest) : s.Posts R (s.writeFailed q) := by
  unfold State.writeFailed
  split
  · split
    · exact s.posts_fatal _
    · split
      · exact (s.posts_ringWriteFailed _).trans (State.posts_restoreFires _ _ _ _ _ _ _)
      all_goals exact s.posts_ringWriteFailed _
  · split
    · exact s.posts_fatal _
    · exact s.posts_ringWriteFailed _
  · exact .refl s

theorem posts_writeDone (h : exec .writeDone s = .next t) : s.Posts R t := by
  cases h
  split
  · exact .refl s
  · have hended : s.Posts R (s.endDma DmaRequest.ofPoster) := State.PostStep.ended.posts
    dsimp only
    split
    · exact hended.trans (.of_frame (by simp) (by simp) (by simp) (by simp))
    · exact hended

theorem posts_writeFailed (h : exec .writeFailed s = .next t) : s.Posts R t := by
  cases h
  split
  · exact .refl s
  · have hended : s.Posts R (s.endDma DmaRequest.ofPoster) := State.PostStep.ended.posts
    dsimp only
    split
    · exact hended.trans (State.posts_writeFailed _ _)
    · exact hended

/-! ### Every such command -/

/-- The commands that begin or end a fetch read or a transfer, or start or end a transfer job. -/
def servesFetchOrTransfer : Instr → Bool
  | .arbitration | .recordArrival _ | .readBusError | .exportDomain | .importDomain | .abortTransfer | .exportVisit | .transferWriteDone
  | .exportRelease | .transferReadDone _ | .importCreation | .transferBusError => true
  | _ => false

theorem exec_posts {c : Instr} (hc : servesFetchOrTransfer c = false) (h : exec c s = .next t) (hR : s.ready = true → R) : s.Posts R t := by
  cases c with
  | arbitration | recordArrival | readBusError | exportDomain | importDomain | abortTransfer | exportVisit | transferWriteDone |
    exportRelease | transferReadDone | importCreation | transferBusError => cases hc
  | arm => cases h; exact posts_runCommand hR fun w _ h _ => posts_armBody h w
  | rearm => cases h; exact posts_runCommand hR fun w _ h _ => posts_rearmBody h w
  | cancel => cases h; exact posts_runCommand hR fun w _ h _ => posts_cancelBody h w
  | kick => cases h; exact posts_runCommand hR fun w _ h _ => posts_kickBody h w
  | query => cases h; exact posts_runCommand hR fun w _ h _ => posts_queryBody h w
  | readStatus => cases h; exact posts_runCommand hR fun _ _ h _ => State.posts_answer h _ _
  | openSubmissionRing => cases h; exact posts_runCommand hR fun _ _ h hfields => posts_openSubmissionBody h hfields
  | closeSubmissionRing => cases h; exact posts_runCommand hR fun w _ h _ => posts_closeSubmissionBody h w
  | openCompletionRing => cases h; exact posts_runCommand hR fun _ _ h hfields => posts_openCompletionBody h hfields
  | closeCompletionRing => cases h; exact posts_runCommand hR fun w _ h _ => posts_closeCompletionBody h w
  | restartCompletionRing => cases h; exact posts_runCommand hR fun w _ h _ => posts_restartBody h w
  | setTimebase => cases h; exact posts_runCommand hR fun w _ h _ => posts_setTimebaseBody h w
  | createDomain => cases h; exact posts_runCommand hR fun w _ h _ => posts_createBody h w
  | destroyDomain => cases h; exact posts_runCommand hR fun w _ h _ => posts_destroyBody h w
  | pauseDomain => cases h; exact posts_runCommand hR fun w _ h _ => posts_pauseBody h w
  | resumeDomain => cases h; exact posts_runCommand hR fun w _ h _ => posts_resumeBody h w
  | invalidKind =>
    cases h
    split
    · exact .refl s
    · split
      · exact s.posts_takeRecord.trans (State.posts_answer (by simpa using hR) _ _)
      · exact .refl s
  | allocation => exact posts_allocation h hR
  | srTailWrite => cases h; exact s.posts_writeTail _ _
  | crHeadWrite => cases h; exact s.posts_writeHead _ _
  | enableSet => cases h; exact s.posts_writeEnable1
  | enableClear => cases h; exact s.posts_writeEnable0
  | deviceReset => cases h; exact s.posts_deviceReset
  | powerOnReset => cases h; exact s.posts_deviceReset.trans (.of_frame rfl rfl rfl rfl)
  | deviceTimeLowRead offset width =>
    cases h
    obtain ⟨latch, hread⟩ := s.readAccess_spec offset width
    exact .of_frame (by simp [hread]) (by simp [hread]) (by simp [hread]) (by simp [hread])
  | registerWrite offset width value =>
    cases h
    split
    case h_4 => exact State.posts_writeWords _ offset s
    all_goals exact .refl s
  | disable => exact posts_disable h
  | tickEvent =>
    cases h
    split
    · rename_i hready; exact State.posts_tick (hR hready.1) s
    · exact .refl s
  | refinEdge => exact posts_refinEdge h hR
  | loss => exact posts_loss h hR
  | goodRun elapsed =>
    cases h
    split
    · rename_i hready; exact State.posts_goodRunEvent (hR hready.1) s elapsed
    · exact .refl s
  | edgeEquivalent => exact posts_edgeEquivalent h hR
  | wheelStep => cases h; split <;> exact .of_frame rfl rfl rfl rfl
  | overflowSweep | cascade | l0Emptying =>
    cases h
    repeat' split
    case h_2 => exact .of_frame (by simp) (by simp) (by simp) (by simp)
    all_goals exact .refl s
  | stepEnd =>
    cases h
    split
    · exact .of_frame (by simp) (by simp) (by simp) (by simp)
    · exact .refl s
  | take => exact posts_take h hR
  | drain => exact posts_drain h hR
  | eventPost => exact posts_eventPost h hR
  | countTrigger | delayTrigger =>
    cases h
    split
    · rename_i hready; exact State.posts_sendMessage (hR hready.1) _
    · exact .refl s
  | writeDone => exact posts_writeDone h
  | writeFailed => exact posts_writeFailed h
  | destroyWalkVisit => exact posts_destroyWalkVisit h
  | destroyWalkEnd => exact posts_destroyWalkEnd h hR

end Sys2Proof.Machine
end

section
/-! The commands that serve the fetch path and the transfers, and with them what every command keeps of the rings (R133, R135, R151, R155) and of the
requests in flight (R138, R175, R183), and that none issues a request outside READY (R148, R168, R171, R188, R191). -/

namespace Sys2Proof.Machine

variable {R : Prop} {s t u : State} {j : Job}

/-! ### The rings -/

theorem State.posts_takeAhead (s : State) : s.Posts R s.takeAhead := by
  rcases s.takeAhead_spec with ⟨htake, -⟩ | ⟨htake, -⟩ <;> rw [htake]
  · exact s.posts_takeRecord
  · exact .refl s

/-- R139: the choice of a ring changes the grant only. -/
theorem State.arbitrate_rings {i : Fin 8} {f : Fetcher} (h : s.arbitrate = some (i, f)) : f.rings = s.fetcher.rings := by
  have hnext : ((searchOrder s.fetcher.grant).find? (fun i => s.eligible i)).map (fun i => (i, s.fetcher.grantTo i (s.sr i).weight)) = some (i, f) →
      f.rings = s.fetcher.rings := fun h => by
    obtain ⟨k, -, hk⟩ := Option.map_eq_some_iff.1 h
    cases hk; rfl
  unfold State.arbitrate at h
  dsimp only at h
  split at h
  · cases h; rfl
  · split at h
    · split at h
      · cases h; rfl
      · exact hnext h
    · exact hnext h

/-- R136: of the rings a fetch changes the reserved count of the paired one only. -/
theorem State.ringsKept_holdArbitration (s : State) : s.RingsKept s.holdArbitration := by
  unfold State.holdArbitration
  split
  · split
    · exact .refl s
    · rename_i i f harb
      have hchosen : s.RingsKept { s with fetcher := f } := .of_eq (State.arbitrate_rings harb) rfl
      exact hchosen.trans ((State.RingsKept.updateCr (f := fun q => { q with reserved := q.reserved + 1 }) id).trans (.of_eq rfl rfl))
  · exact .refl s

/-- R142, R146: what follows the failure of a read: the reservation returned, the ring failed or CLOSED. -/
theorem State.posts_readFailed (h : s.ready = true → R) (f : Fetch) : s.Posts R (s.readFailed f) := by
  have hreturned : s.Posts R (s.updateCr f.ring (fun q => { q with reserved := q.reserved - 1 })) := State.posts_updateCr id
  have hfailed : ∀ u : State, u.Posts R ((u.updateSr f.source (·.failRead f.ringClosed)).raise .ringError (.submissionRing f.source) .busError) :=
    fun _ => (State.posts_updateSr fun h => SubmissionRing.failRead_legal h _).trans (State.posts_raise _ _ _ _)
  exact (hreturned.trans (hfailed _)).trans (State.posts_finishClosing (by exact h) _)

/-- R174, R175: the end of a job, before its completion is handed. -/
def State.withoutJob (s : State) (j : Job) : State :=
  { s.updateDomain j.domain (fun d => { d with busy := .none }) with
    transfer := { job := none }
    table := { s.table with waiting := s.table.waiting.filter (· != .creation) }
    host := { s.host with dma := s.host.dma.map DmaRequest.orphan } }

theorem State.endJob_eq (s : State) (j : Job) (st : Status) (n : Nat) (w : DWord) :
    s.endJob j st n w = (s.withoutJob j).reply j.ticket { status := st, count := BitVec.ofNat 32 n, wordA := w } := rfl

theorem State.ringsKept_endJob (s : State) (j : Job) (st : Status) (n : Nat) (w : DWord) : s.RingsKept (s.endJob j st n w) := by
  have hended : s.RingsKept (s.withoutJob j) := .of_eq rfl rfl
  rw [State.endJob_eq]
  exact hended.trans (State.posts_reply (R := True) (fun _ => trivial) _ _).ringsKept

theorem State.posts_rollback (s : State) (d : Fin 64) : s.Posts R (s.rollback d) := by
  unfold State.rollback
  exact (s.posts_freeAll _).trans (.of_frame rfl rfl rfl rfl)

theorem State.ringsKept_failJob (s : State) (j : Job) (st : Status) : s.RingsKept (s.failJob j st) := by
  unfold State.failJob
  split
  case h_4 => exact (State.posts_rollback (R := True) s _).ringsKept.trans (State.ringsKept_endJob _ _ _ _ _)
  all_goals exact s.ringsKept_endJob _ _ _ _

theorem State.ringsKept_jobWriteDone (s : State) (j : Job) (item : TransferItem) : s.RingsKept (s.jobWriteDone j item) := by
  unfold State.jobWriteDone
  split
  case h_3 =>
    split
    · exact .of_eq (by simp) (by simp)
    · exact s.ringsKept_endJob _ _ _ _
  all_goals exact .of_eq (by simp) (by simp)

theorem State.ringsKept_jobReadDone (s : State) (j : Job) (item : TransferItem) (data : RecordBits) : s.RingsKept (s.jobReadDone j item data) := by
  unfold State.jobReadDone
  split
  · unfold State.verifyHeader
    split
    · exact .of_eq (by simp) (by simp)
    · exact s.ringsKept_endJob _ _ _ _
  · exact .of_eq (by simp) (by simp)
  · unfold State.verifyTrailer
    split
    · exact s.ringsKept_endJob _ _ _ _
    · exact .of_eq (by simp) (by simp)
  · exact .of_eq (by simp) (by simp)
  · unfold State.createRecord
    split
    · dsimp only
      split <;> exact .of_eq (by simp) (by simp)
    · exact s.ringsKept_failJob _ _
  · unfold State.createTrailer
    split
    · exact (State.RingsKept.of_eq (by simp) (by simp)).trans (State.ringsKept_endJob _ _ _ _ _)
    · exact s.ringsKept_failJob _ _
  · exact .refl s

theorem State.ringsKept_create (s : State) (j : Job) (r : RecordBits) : s.RingsKept (s.create j r) := by
  have hallocated : s.RingsKept (s.allocateHead (importedEntry r j.domain s.timebase.time).ring) :=
    (State.posts_allocateHead (R := True) s _).ringsKept
  exact hallocated.trans (.of_eq (by simp [State.create]) (by simp [State.create]))

/-! ### The requests in flight -/

theorem countP_eraseP_of_disjoint {α : Type} {p q : α → Bool} (h : ∀ a, p a = true → q a = false) (l : List α) :
    (l.eraseP p).countP q = l.countP q := by
  rcases List.exists_or_eq_self_of_eraseP p l with heq | ⟨a, l₁, l₂, -, ha, hl, herase⟩
  · rw [heq]
  · rw [herase, hl, List.countP_append, List.countP_append, List.countP_cons_of_neg (by simp [h a ha])]

theorem countP_eraseP_of_mem {α : Type} {p q : α → Bool} (h : ∀ a, p a = true → q a = true) {l : List α} {a : α} (hm : a ∈ l)
    (ha : p a = true) : (l.eraseP p).countP q + 1 = l.countP q := by
  obtain ⟨b, l₁, l₂, -, hb, hl, herase⟩ := List.exists_of_eraseP hm ha
  rw [herase, hl, List.countP_append, List.countP_append, List.countP_cons_of_pos (h b hb), Nat.add_assoc]

/-- A request of the Poster is none of the fetcher's. -/
theorem DmaRequest.ofFetcher_of_ofPoster {q : DmaRequest} (h : q.ofPoster = true) : q.ofFetcher = false := by
  cases q with
  | fetchRead => cases h
  | _ => rfl

/-- A request of the Poster is no transfer. -/
theorem DmaRequest.ofTransfer_of_ofPoster {q : DmaRequest} (h : q.ofPoster = true) : q.ofTransfer = false := by
  cases q with
  | transferRead | transferWrite => cases h
  | _ => rfl

/-- A transfer is no request of the fetcher. -/
theorem DmaRequest.ofFetcher_of_ofTransfer {q : DmaRequest} (h : q.ofTransfer = true) : q.ofFetcher = false := by
  cases q with
  | fetchRead => cases h
  | _ => rfl

/-- A fetch read is no transfer. -/
theorem DmaRequest.ofTransfer_of_ofFetcher {q : DmaRequest} (h : q.ofFetcher = true) : q.ofTransfer = false := by
  cases q with
  | fetchRead => rfl
  | _ => cases h

/-- How many fetch reads are in flight. -/
def State.fetches (s : State) : Nat := s.host.dma.countP DmaRequest.ofFetcher

/-- How many transfers are in flight. -/
def State.transfers (s : State) : Nat := s.host.dma.countP DmaRequest.ofTransfer

theorem State.transferring_eq_false : s.transferring = false ↔ s.transfers = 0 := by
  simp [State.transferring, State.transfers, List.countP_eq_zero]

/-- R138, R175, R183: what it is for one fetch read and one transfer to be in flight at a time. -/
theorem State.oneAtATime_iff : s.OneAtATime ↔ s.fetches = s.fetcher.path.isReading.toNat ∧ s.transfers ≤ 1 ∧
    ∀ j, s.transfer.job = some j → j.creation ≠ none → j.stage = .creating ∧ s.transfers = 0 := by
  simp only [State.OneAtATime, State.transferring_eq_false]
  cases s.fetcher.path <;> rfl

theorem State.OneAtATime.congr (h : s.OneAtATime) (hf : t.fetches = s.fetches) (ht : t.transfers = s.transfers)
    (hp : t.fetcher.path.isReading = s.fetcher.path.isReading) (hj : t.transfer.job = s.transfer.job) : t.OneAtATime := by
  rw [State.oneAtATime_iff] at h ⊢
  rw [hf, ht, hp, hj]
  exact h

theorem State.fetches_pushDma (s : State) (q : DmaRequest) : (s.pushDma q).fetches = s.fetches + q.ofFetcher.toNat := by
  simp only [State.fetches, State.pushDma, List.countP_append]
  cases h : q.ofFetcher <;> simp [h]

theorem State.transfers_pushDma (s : State) (q : DmaRequest) : (s.pushDma q).transfers = s.transfers + q.ofTransfer.toNat := by
  simp only [State.transfers, State.pushDma, List.countP_append]
  cases h : q.ofTransfer <;> simp [h]

/-- R154, R161: the Poster's requests come and go beside the others. -/
theorem State.Posts.oneAtATime (h : s.Posts R t) (hs : s.OneAtATime) : t.OneAtATime := by
  induction h with
  | refl => exact hs
  | tail _ h ih =>
    cases h with
    | still h => exact ih.congr (by rw [State.fetches, h.dma]; rfl) (by rw [State.transfers, h.dma]; rfl) h.path h.job
    | post _ hq =>
      exact ih.congr (by rw [State.fetches_pushDma, DmaRequest.ofFetcher_of_ofPoster hq]; rfl)
        (by rw [State.transfers_pushDma, DmaRequest.ofTransfer_of_ofPoster hq]; rfl) rfl rfl
    | ended =>
      exact ih.congr (countP_eraseP_of_disjoint (fun _ => DmaRequest.ofFetcher_of_ofPoster) _)
        (countP_eraseP_of_disjoint (fun _ => DmaRequest.ofTransfer_of_ofPoster) _) rfl rfl
    | reset => exact State.oneAtATime_iff.2 ⟨rfl, Nat.zero_le _, fun _ hj => nomatch hj⟩

/-! ### Between two transfers -/

/-- R175, R183: no transfer is in flight, and no creation claim under way. -/
structure State.NoTransfer (s : State) : Prop where
  fetch : s.fetches = s.fetcher.path.isReading.toNat
  none : s.transfers = 0
  creation : ∀ j, s.transfer.job = some j → j.creation = Option.none

theorem State.NoTransfer.oneAtATime (h : s.NoTransfer) : s.OneAtATime :=
  State.oneAtATime_iff.2 ⟨h.fetch, h.none.trans_le (Nat.zero_le _), fun j hj hc => absurd (h.creation j hj) hc⟩

/-- R175: with no transfer in flight one can be issued. -/
theorem State.NoTransfer.pushDma (h : s.NoTransfer) {q : DmaRequest} (hq : q.ofTransfer = true) : (s.pushDma q).OneAtATime := by
  refine State.oneAtATime_iff.2 ⟨?_, ?_, fun j hj hc => absurd (h.creation j hj) hc⟩
  · rw [State.fetches_pushDma, DmaRequest.ofFetcher_of_ofTransfer hq]
    exact h.fetch
  · rw [State.transfers_pushDma, hq, h.none]
    exact Nat.le_refl 1

theorem State.NoTransfer.issue (h : s.NoTransfer) {q : Job → DmaRequest} (hq : ∀ j, (q j).ofTransfer = true) : (s.issue q).OneAtATime := by
  unfold State.issue
  split
  · exact h.oneAtATime
  · exact h.pushDma (hq _)

/-- A change of the job record that begins no creation claim. -/
theorem State.NoTransfer.updateJob (h : s.NoTransfer) {f : Job → Job} (hf : ∀ j, j.creation = Option.none → (f j).creation = Option.none) :
    (s.updateJob f).NoTransfer := by
  refine ⟨h.fetch, h.none, fun j hj => ?_⟩
  obtain ⟨i, hi, rfl⟩ := Option.map_eq_some_iff.1 hj
  exact hf i (h.creation i hi)

/-- R175: the job changes, and its next transfer is issued. -/
theorem State.NoTransfer.updateJob_issue (h : s.NoTransfer) {f : Job → Job} {q : Job → DmaRequest}
    (hf : ∀ j, j.creation = Option.none → (f j).creation = Option.none) (hq : ∀ j, (q j).ofTransfer = true) :
    ((s.updateJob f).issue q).OneAtATime := (h.updateJob hf).issue hq

theorem Job.firstTransfer_ofTransfer (j : Job) : j.firstTransfer.ofTransfer = true := by
  unfold Job.firstTransfer
  split <;> rfl

theorem Job.nextRead_ofTransfer (j : Job) : j.nextRead.ofTransfer = true := by
  unfold Job.nextRead
  split <;> rfl

theorem State.NoTransfer.beginTransfers (h : s.NoTransfer) : s.beginTransfers.OneAtATime :=
  h.updateJob_issue (fun j => (Job.begun_creation j).trans) Job.firstTransfer_ofTransfer

/-- R175: when the one transfer in flight ends, none is, and it kept every creation claim away. -/
theorem State.OneAtATime.endTransfer (h : s.OneAtATime) {p : DmaRequest → Bool} (hp : ∀ q, p q = true → q.ofTransfer = true) {q : DmaRequest}
    (hq : s.host.dma.find? p = some q) : (s.endDma p).NoTransfer := by
  obtain ⟨hfetch, htransfers, hcreation⟩ := State.oneAtATime_iff.1 h
  have hcount : (s.endDma p).transfers + 1 = s.transfers := countP_eraseP_of_mem hp (List.mem_of_find?_eq_some hq) (List.find?_some hq)
  refine ⟨?_, by omega, fun j hj => ?_⟩
  · exact (countP_eraseP_of_disjoint (fun q hq => DmaRequest.ofFetcher_of_ofTransfer (hp q hq)) _).trans hfetch
  · by_contra hc
    obtain ⟨-, hzero⟩ := hcreation j hj hc
    omega

theorem DmaRequest.ofTransfer_of_read (q : DmaRequest) (h : q.isTransferRead = true) : q.ofTransfer = true := by simp [DmaRequest.ofTransfer, h]

theorem DmaRequest.ofTransfer_of_write (q : DmaRequest) (h : q.isTransferWrite = true) : q.ofTransfer = true := by simp [DmaRequest.ofTransfer, h]

theorem DmaRequest.orphan_ofFetcher (q : DmaRequest) : q.orphan.ofFetcher = q.ofFetcher := by cases q <;> rfl

theorem DmaRequest.orphan_ofTransfer (q : DmaRequest) : q.orphan.ofTransfer = q.ofTransfer := by cases q <;> rfl

/-- R175: a transfer stays in flight when its job ends. -/
theorem State.OneAtATime.endJob (h : s.OneAtATime) (j : Job) (st : Status) (n : Nat) (w : DWord) : (s.endJob j st n w).OneAtATime := by
  obtain ⟨hfetch, htransfers, -⟩ := State.oneAtATime_iff.1 h
  have hf : (s.withoutJob j).fetches = s.fetches := List.countP_map.trans (congrArg (s.host.dma.countP ·) (funext DmaRequest.orphan_ofFetcher))
  have ht : (s.withoutJob j).transfers = s.transfers := List.countP_map.trans (congrArg (s.host.dma.countP ·) (funext DmaRequest.orphan_ofTransfer))
  have hended : (s.withoutJob j).OneAtATime := State.oneAtATime_iff.2 ⟨hf.trans hfetch, ht.trans_le htransfers, fun _ hi => nomatch hi⟩
  rw [State.endJob_eq]
  exact (State.posts_reply (R := True) (fun _ => trivial) _ _).oneAtATime hended

theorem State.OneAtATime.failJob (h : s.OneAtATime) (j : Job) (st : Status) : (s.failJob j st).OneAtATime := by
  unfold State.failJob
  split
  case h_4 => exact ((State.posts_rollback (R := True) s _).oneAtATime h).endJob _ _ _ _
  all_goals exact h.endJob _ _ _ _

/-- R174, R175: a new job issues its first transfer unless another is in flight. -/
theorem State.OneAtATime.startJob (h : s.OneAtATime) {j : Job} (hj : j.creation = none) (busy : TransferBusy) : (s.startJob j busy).OneAtATime := by
  obtain ⟨hfetch, htransfers, -⟩ := State.oneAtATime_iff.1 h
  have hnew : ∀ i, some j = some i → i.creation = none := fun i hi => Option.some.inj hi ▸ hj
  unfold State.startJob
  dsimp only
  split
  · rename_i hidle
    have hnone : s.transfers = 0 := State.transferring_eq_false.1 (by simpa [State.transferring] using hidle.2)
    exact State.NoTransfer.beginTransfers ⟨hfetch, hnone, hnew⟩
  · exact State.oneAtATime_iff.2 ⟨hfetch, htransfers, fun i hi hc => absurd (hnew i hi) hc⟩

theorem State.NoTransfer.visit (h : s.NoTransfer) (j : Job) : (s.visit j).OneAtATime := by
  unfold State.visit
  split
  · rename_i e _
    refine State.NoTransfer.pushDma (q := j.recordWrite e) (h.updateJob ?_) rfl
    exact fun _ => id
  · have hpassed := h.updateJob (f := fun j => { j with position := j.position + 1 }) fun _ => id
    dsimp only
    split
    · exact hpassed.issue fun _ => rfl
    · exact hpassed.oneAtATime

theorem State.NoTransfer.jobWriteDone (h : s.NoTransfer) (j : Job) (item : TransferItem) : (s.jobWriteDone j item).OneAtATime := by
  unfold State.jobWriteDone
  split
  · exact h.oneAtATime
  · have hcounted := h.updateJob (f := fun j => { j with recordsDone := j.recordsDone + 1 }) fun _ => id
    unfold State.trailerIfLast
    split
    · exact hcounted.issue fun _ => rfl
    · exact hcounted.oneAtATime
  · split
    · exact State.NoTransfer.oneAtATime (h.updateJob fun _ => id)
    · exact h.oneAtATime.endJob _ _ _ _
  · exact h.issue Job.nextRead_ofTransfer

/-- R183: a record read in pass 2 begins its creation claim between two transfers. -/
theorem State.NoTransfer.createRecord (h : s.NoTransfer) (hstage : ∀ i, s.transfer.job = some i → i.stage = .creating) (j : Job)
    (r : RecordBits) : (s.createRecord j r).OneAtATime := by
  have hclaim : (s.updateJob (fun j => { j with
      runningSum := j.runningSum + wordSum r, position := j.position + 1, creation := some r })).OneAtATime := by
    refine State.oneAtATime_iff.2 ⟨h.fetch, h.none.trans_le (Nat.zero_le _), fun i hi _ => ⟨?_, h.none⟩⟩
    obtain ⟨k, hk, rfl⟩ := Option.map_eq_some_iff.1 hi
    exact hstage k hk
  unfold State.createRecord
  split
  · dsimp only
    split
    · exact hclaim.congr (by simp [State.fetches]) (by simp [State.transfers]) (by simp) (by simp)
    · exact hclaim
  · exact h.oneAtATime.failJob _ _

/-- R182: the reservation claim ends with the first read of pass 2. -/
theorem State.NoTransfer.reserve (h : s.NoTransfer) (j : Job) : (s.reserve j).OneAtATime := by
  have hreserved : ∀ (table : TimerTable) (domains : Vector Domain 64), ({ s with table := table, domains := domains } : State).NoTransfer :=
    fun _ _ => ⟨h.fetch, h.none, h.creation⟩
  refine State.NoTransfer.updateJob_issue (hreserved _ _) ?_ Job.firstTransfer_ofTransfer
  exact fun _ => id

theorem State.NoTransfer.jobReadDone (h : s.NoTransfer) (hj : s.transfer.job = some j) (item : TransferItem) (data : RecordBits) :
    (s.jobReadDone j item data).OneAtATime := by
  unfold State.jobReadDone
  split
  · unfold State.verifyHeader
    split
    · exact h.updateJob_issue (fun _ => id) Job.nextRead_ofTransfer
    · exact h.oneAtATime.endJob _ _ _ _
  · exact h.updateJob_issue (fun _ => id) Job.nextRead_ofTransfer
  · unfold State.verifyTrailer
    split
    · exact h.oneAtATime.endJob _ _ _ _
    · exact h.reserve j
  · exact h.updateJob_issue (fun _ => id) Job.nextRead_ofTransfer
  · rename_i hstage
    exact h.createRecord (fun i hi => by cases hj.symm.trans hi; exact hstage) j data
  · unfold State.createTrailer
    split
    · exact State.OneAtATime.endJob (h.oneAtATime.congr (by simp [State.fetches]) (by simp [State.transfers]) (by simp) (by simp)) _ _ _ _
    · exact h.oneAtATime.failJob _ _
  · exact h.oneAtATime

/-- R183: the write of the handle follows the creation that ends its claim. -/
theorem State.OneAtATime.create (h : s.OneAtATime) {r : RecordBits} (hj : s.transfer.job = some j) (hr : j.creation = some r) :
    (s.create j r).OneAtATime := by
  obtain ⟨hfetch, -, hcreation⟩ := State.oneAtATime_iff.1 h
  obtain ⟨-, hnone⟩ := hcreation j hj (by simp [hr])
  refine State.NoTransfer.pushDma (q := j.handleWrite (handleOf (s.table.freeList.headD 0) (s.generationAt (s.table.freeList.headD 0))))
    ⟨?_, ?_, fun i hi => ?_⟩ rfl
  · simpa [State.fetches] using hfetch
  · simpa [State.transfers] using hnone
  · obtain ⟨k, -, rfl⟩ := Option.map_eq_some_iff.1 hi
    rfl

/-! ### The fetch path -/

/-- R138: with the path IDLE a fetch puts its one read in flight. -/
theorem State.OneAtATime.holdArbitration (h : s.OneAtATime) : s.holdArbitration.OneAtATime := by
  unfold State.holdArbitration
  split
  · rename_i hidle
    obtain ⟨hfetch, htransfers, hcreation⟩ := State.oneAtATime_iff.1 h
    rw [hidle.2] at hfetch
    split
    · exact h
    · rename_i i f _
      have hone : (({ s with fetcher := f } : State).startFetch i).fetches = 1 := (s.fetches_pushDma _).trans (congrArg (· + 1) hfetch)
      have hsame : (({ s with fetcher := f } : State).startFetch i).transfers = s.transfers := s.transfers_pushDma _
      exact State.oneAtATime_iff.2 ⟨hone, hsame.trans_le htransfers, fun j hj hc => hsame.symm ▸ hcreation j hj hc⟩
  · exact h

/-- R138: the end of the one fetch read. -/
theorem State.OneAtATime.endFetch (h : s.OneAtATime) {f : Fetch} (hf : s.fetcher.path = .reading f) {p : FetchPath} (hp : p.isReading = false) :
    (s.readEnded p).OneAtATime := by
  obtain ⟨hfetch, htransfers, hcreation⟩ := State.oneAtATime_iff.1 h
  rw [hf] at hfetch
  obtain ⟨q, hmem, hq⟩ := List.countP_pos_iff.1 (Nat.lt_of_lt_of_eq Nat.one_pos hfetch.symm)
  have hcount : (s.readEnded p).fetches + 1 = s.fetches := countP_eraseP_of_mem (fun _ => id) hmem hq
  have hsame : (s.readEnded p).transfers = s.transfers := countP_eraseP_of_disjoint (fun _ => DmaRequest.ofTransfer_of_ofFetcher) _
  refine State.oneAtATime_iff.2 ⟨?_, hsame.trans_le htransfers, fun j hj hc => hsame.symm ▸ hcreation j hj hc⟩
  show _ = p.isReading.toNat
  rw [hp]
  exact Nat.add_right_cancel (hcount.trans hfetch)

/-! ### Every command -/

/-- The rings stay legal, and the requests in flight as they may be. -/
structure State.WorkKept (s t : State) : Prop where
  rings : s.RingsKept t
  requests : s.OneAtATime → t.OneAtATime

theorem State.WorkKept.refl (s : State) : s.WorkKept s := ⟨.refl s, id⟩

theorem State.WorkKept.trans (h : s.WorkKept t) (h' : t.WorkKept u) : s.WorkKept u := ⟨h.rings.trans h'.rings, h'.requests ∘ h.requests⟩

theorem State.Posts.workKept (h : s.Posts True t) : s.WorkKept t := ⟨h.ringsKept, h.oneAtATime⟩

theorem State.workKept_answer (s : State) (k : Ticket) (r : Reply) : s.WorkKept (s.answer k r) :=
  (State.posts_answer (fun _ => trivial) k r).workKept

theorem State.workKept_failJob (s : State) (j : Job) (st : Status) : s.WorkKept (s.failJob j st) :=
  ⟨s.ringsKept_failJob j st, fun h => h.failJob j st⟩

/-- R106, R108: a command in hand keeps what its body keeps. -/
theorem workKept_runCommand {k : CommandKind} {fieldsBad : CommandBits → Nat → Bool} {body : Taken → State → State}
    (hbody : ∀ (w : Taken) (u : State), u.WorkKept (body w u)) : s.WorkKept (runCommand k fieldsBad body s) :=
  have htaken : s.WorkKept s.takeRecord := s.posts_takeRecord.workKept
  runCommand_ind (Q := s.WorkKept) (.refl s) (fun _ _ _ => htaken.trans (State.workKept_answer _ _ _)) fun w _ _ _ _ => htaken.trans (hbody w _)

/-- R174: a job-kind command that starts a job without a creation claim. -/
theorem workKept_startJob {k : CommandKind} {w : Taken} {checks : List (Bool × Status)} {start : State → Job} (hj : (start s).creation = none)
    (busy : TransferBusy) : s.WorkKept (checkedJob k w checks (fun s => s.startJob (start s) busy) s) :=
  have hstarted : s.WorkKept (s.startJob (start s) busy) := ⟨.of_eq (by simp) (by simp), fun h => h.startJob hj busy⟩
  checkedJob_ind (Q := s.WorkKept) (fun _ => State.workKept_answer _ _ _) fun _ =>
    hstarted.trans (State.posts_endCommand (fun _ => trivial) _).workKept

theorem workKept_abortBody (w : Taken) (s : State) : s.WorkKept (abortBody w s) := by
  unfold abortBody
  split
  · exact s.workKept_answer _ _
  · split
    · exact (s.workKept_failJob _ _).trans (State.workKept_answer _ _ _)
    · exact .refl s

theorem workKept_recordArrival {record : CommandBits} (h : exec (.recordArrival record) s = .next t) : s.WorkKept t := by
  cases hp : s.fetcher.path with
  | idle | delivered f =>
    rw [(exec_fetchRead_of_not_reading (by simp [hp]) record).1] at h
    cases h; exact .refl s
  | reading f =>
    rw [exec_recordArrival hp] at h
    cases h
    split
    · have hadvanced : s.RingsKept (s.updateSr f.source (·.advance f.ringClosed)) := .updateSr fun h => SubmissionRing.advance_legal h _
      exact ⟨hadvanced.trans (.of_eq rfl rfl), fun h => (h.endFetch hp (p := .delivered f) rfl).congr rfl rfl rfl rfl⟩
    · exact ⟨.of_eq rfl rfl, fun h => h.endFetch hp rfl⟩

theorem workKept_readBusError (h : exec .readBusError s = .next t) : s.WorkKept t := by
  cases hp : s.fetcher.path with
  | idle | delivered f =>
    rw [(exec_fetchRead_of_not_reading (by simp [hp]) 0).2] at h
    cases h; exact .refl s
  | reading f =>
    have hended : s.WorkKept (s.readEnded .idle) := ⟨.of_eq rfl rfl, fun h => h.endFetch hp rfl⟩
    rw [exec_readBusError hp] at h
    cases h
    split
    · split
      · exact hended.trans (State.posts_fatal _ _).workKept
      · exact hended.trans (State.posts_readFailed (fun _ => trivial) _).workKept
    · exact hended

/-- R175, R188: the end of a transfer: in READY with a job, `done` when it is that job's, or else the job's first one is issued. -/
theorem State.workKept_endTransfer {c : Instr} (h : exec c s = .next t) {p : DmaRequest → Bool} (hp : ∀ q, p q = true → q.ofTransfer = true)
    {q : DmaRequest} (hq : s.host.dma.find? p = some q) {live : Bool} {done : Job → State → State}
    (hexec : (s.host.device ≠ .ready ∨ s.transfer.job = none → exec c s = .next (s.endDma p)) ∧
      ∀ j, s.host.device = .ready → s.transfer.job = some j → exec c s = .next (if live then done j (s.endDma p) else (s.endDma p).orphanEnded))
    (hrings : ∀ (j : Job) (u : State), u.RingsKept (done j u))
    (hrequests : ∀ (j : Job) (u : State), u.NoTransfer → u.transfer.job = some j → (done j u).OneAtATime) : s.WorkKept t := by
  have hended : s.RingsKept (s.endDma p) := .of_eq rfl rfl
  by_cases hnone : s.host.device ≠ .ready ∨ s.transfer.job = none
  · cases h.symm.trans (hexec.1 hnone)
    exact ⟨hended, fun h => (h.endTransfer hp hq).oneAtATime⟩
  · obtain ⟨hready, hsome⟩ := not_or.1 hnone
    obtain ⟨j, hj⟩ := Option.ne_none_iff_exists'.1 hsome
    cases h.symm.trans (hexec.2 j (not_not.1 hready) hj)
    split
    · exact ⟨hended.trans (hrings j _), fun h => hrequests j _ (h.endTransfer hp hq) hj⟩
    · exact ⟨hended.trans (.of_eq (by simp) (by simp)), fun h => (h.endTransfer hp hq).beginTransfers⟩

theorem workKept_transferWriteDone (h : exec .transferWriteDone s = .next t) : s.WorkKept t := by
  cases hq : s.host.dma.find? DmaRequest.isTransferWrite with
  | none =>
    have hexec : exec .transferWriteDone s = execTransferWriteDone s := rfl
    rw [hexec, execTransferWriteDone, hq] at h
    cases h; exact .refl s
  | some q =>
    cases q with
    | transferWrite live item =>
      exact State.workKept_endTransfer h DmaRequest.ofTransfer_of_write hq (exec_transferWriteDone hq)
        (fun j u => u.ringsKept_jobWriteDone j item) fun j _ h _ => h.jobWriteDone j item
    | _ => cases List.find?_some hq

theorem workKept_transferReadDone {data : RecordBits} (h : exec (.transferReadDone data) s = .next t) : s.WorkKept t := by
  cases hq : s.host.dma.find? DmaRequest.isTransferRead with
  | none =>
    have hexec : exec (.transferReadDone data) s = execTransferReadDone data s := rfl
    rw [hexec, execTransferReadDone, hq] at h
    cases h; exact .refl s
  | some q =>
    cases q with
    | transferRead live item =>
      exact State.workKept_endTransfer h DmaRequest.ofTransfer_of_read hq (exec_transferReadDone data hq)
        (fun j u => u.ringsKept_jobReadDone j item data) fun _ _ h hj => h.jobReadDone hj item data
    | _ => cases List.find?_some hq

theorem workKept_transferBusError (h : exec .transferBusError s = .next t) : s.WorkKept t := by
  cases hq : s.host.dma.find? DmaRequest.ofTransfer with
  | none =>
    have hexec : exec .transferBusError s = execTransferBusError s := rfl
    rw [hexec, execTransferBusError, hq] at h
    cases h; exact .refl s
  | some q =>
    exact State.workKept_endTransfer h (fun _ => id) hq (exec_transferBusError hq) (fun j u => u.ringsKept_failJob j .busError)
      fun j _ h _ => h.oneAtATime.failJob j .busError

/-- R178: a visit is made with no transfer in flight, by a job in WRITING, which has no creation claim under way. -/
theorem workKept_exportVisit (h : exec .exportVisit s = .next t) : s.WorkKept t := by
  cases h
  split
  · exact .refl s
  · rename_i j hj
    split
    · rename_i hvisit
      obtain ⟨-, hidle, hwriting, -⟩ := hvisit
      refine ⟨.of_eq (by simp) (by simp), fun h => State.NoTransfer.visit ?_ j⟩
      obtain ⟨hfetch, -, hcreation⟩ := State.oneAtATime_iff.1 h
      refine ⟨hfetch, State.transferring_eq_false.1 (by simpa using hidle), fun i hi => ?_⟩
      cases hj.symm.trans hi
      by_contra hc
      obtain ⟨hcreating, -⟩ := hcreation j hj hc
      cases hwriting.symm.trans hcreating
    · exact .refl s

theorem workKept_exportRelease (h : exec .exportRelease s = .next t) : s.WorkKept t := by
  cases h
  split
  · exact .refl s
  · split
    · exact (State.posts_freeAll s _).workKept.trans ⟨State.ringsKept_endJob _ _ _ _ _, fun h => h.endJob _ _ _ _⟩
    · exact .refl s

theorem workKept_importCreation (h : exec .importCreation s = .next t) : s.WorkKept t := by
  cases h
  split
  · exact .refl s
  · rename_i j hj
    split
    · exact .refl s
    · rename_i r hr
      split
      · split
        · exact (State.Posts.of_frame (by simp) (by simp) (by simp) (by simp)).workKept
        · exact ⟨s.ringsKept_create j r, fun h => h.create hj hr⟩
      · exact .refl s

theorem exec_workKept (c : Instr) (h : exec c s = .next t) : s.WorkKept t := by
  cases hc : servesFetchOrTransfer c with
  | false => exact (exec_posts hc h fun _ => trivial).workKept
  | true =>
    cases c with
    | arbitration =>
      cases h
      exact s.posts_takeAhead.workKept.trans ⟨State.ringsKept_holdArbitration _, State.OneAtATime.holdArbitration⟩
    | recordArrival => exact workKept_recordArrival h
    | readBusError => exact workKept_readBusError h
    | exportDomain | importDomain => cases h; exact workKept_runCommand fun _ _ => workKept_startJob rfl _
    | abortTransfer => cases h; exact workKept_runCommand workKept_abortBody
    | exportVisit => exact workKept_exportVisit h
    | transferWriteDone => exact workKept_transferWriteDone h
    | exportRelease => exact workKept_exportRelease h
    | transferReadDone => exact workKept_transferReadDone h
    | importCreation => exact workKept_importCreation h
    | transferBusError => exact workKept_transferBusError h
    | _ => cases hc

/-- Every step runs a command on the queue's rest, which neither invariant reads. -/
theorem step_workKept (h : step s = .next t) : s.WorkKept t := by
  unfold step at h
  split at h
  · cases h; exact .refl s
  · rename_i rest _
    have hrest : s.WorkKept { s with pending := rest } := ⟨.of_eq rfl rfl, id⟩
    exact hrest.trans (exec_workKept _ h)

/-- Settles O8: every change of a ring record by a command keeps it legal. -/
theorem ringsStayLegal : Obligations.RingsStayLegal := by
  unfold Obligations.RingsStayLegal
  exact fun _ _ hs h => (step_workKept h).rings.ringsLegal hs

/-- Settles O11: a fetch read begins and ends with the path's READING, and a transfer begins only where none is in flight and no creation claim is
under way. -/
theorem oneAtATimeStays : Obligations.OneAtATimeStays := by
  unfold Obligations.OneAtATimeStays
  exact fun _ _ hs h => (step_workKept h).requests hs

/-! ### Outside READY -/

/-- R174, R188: a command that starts a job outside READY issues no transfer. -/
theorem dma_sublist_startJob (h : ¬ s.ready = true) {k : CommandKind} {w : Taken} {checks : List (Bool × Status)} {start : State → Job}
    {busy : TransferBusy} : List.Sublist (checkedJob k w checks (fun s => s.startJob (start s) busy) s).host.dma s.host.dma := by
  have hstarted : (s.startJob (start s) busy).host.dma = s.host.dma := by
    unfold State.startJob
    dsimp only
    rw [if_neg fun hc => h hc.1]
    rfl
  refine checkedJob_ind (Q := fun u => List.Sublist u.host.dma s.host.dma) (fun _ => (State.posts_answer h _ _).dma_sublist) fun _ => ?_
  have hended := (State.posts_endCommand (s := s.startJob (start s) busy) (R := False) (by simpa [State.ready] using h) w.ticket).dma_sublist
  rwa [hstarted] at hended

theorem dma_sublist_abortBody (h : ¬ s.ready = true) (w : Taken) : List.Sublist (abortBody w s).host.dma s.host.dma := by
  unfold abortBody
  split
  · exact (State.posts_answer h _ _).dma_sublist
  · rw [if_neg h]

/-- R106, R108: outside READY a command in hand issues nothing when its body does not. -/
theorem dma_sublist_runCommand (h : ¬ s.ready = true) {k : CommandKind} {fieldsBad : CommandBits → Nat → Bool} {body : Taken → State → State}
    (hbody : ∀ (w : Taken) (u : State), ¬ u.ready = true → List.Sublist (body w u).host.dma u.host.dma) :
    List.Sublist (runCommand k fieldsBad body s).host.dma s.host.dma :=
  have htaken : ¬ s.takeRecord.ready = true := by simpa using h
  have hdma : s.takeRecord.host.dma = s.host.dma := by simp
  runCommand_ind (Q := fun u => List.Sublist u.host.dma s.host.dma) (.refl _)
    (fun w r _ => hdma ▸ (State.posts_answer htaken w.ticket r).dma_sublist) fun w _ _ _ _ => hdma ▸ hbody w _ htaken

theorem State.holdArbitration_of_not_ready (h : ¬ s.ready = true) : s.holdArbitration = s := if_neg fun hc => h hc.1

/-- R148, R188: outside READY the commands that serve the fetch path or a transfer issue nothing. -/
theorem dma_sublist_of_served {c : Instr} (hc : servesFetchOrTransfer c = true) (hready : ¬ s.ready = true) (h : exec c s = .next t) :
    List.Sublist t.host.dma s.host.dma := by
  cases c with
  | arbitration =>
    cases h
    have hahead : ¬ s.takeAhead.ready = true := by
      rcases s.takeAhead_spec with ⟨htake, -⟩ | ⟨htake, -⟩ <;> simpa [htake] using hready
    rw [State.holdArbitration_of_not_ready hahead]
    exact (State.posts_takeAhead s).dma_sublist
  | recordArrival record =>
    cases hp : s.fetcher.path with
    | idle | delivered f =>
      rw [(exec_fetchRead_of_not_reading (by simp [hp]) record).1] at h
      cases h; exact .refl _
    | reading f =>
      rw [exec_recordArrival hp, if_neg hready] at h
      cases h; exact List.eraseP_sublist
  | readBusError =>
    cases hp : s.fetcher.path with
    | idle | delivered f =>
      rw [(exec_fetchRead_of_not_reading (by simp [hp]) 0).2] at h
      cases h; exact .refl _
    | reading f =>
      rw [exec_readBusError hp, if_neg hready] at h
      cases h; exact List.eraseP_sublist
  | exportDomain | importDomain => cases h; exact dma_sublist_runCommand hready fun _ _ hu => dma_sublist_startJob hu
  | abortTransfer => cases h; exact dma_sublist_runCommand hready fun w _ hu => dma_sublist_abortBody hu w
  | exportVisit | exportRelease =>
    cases h
    split
    · exact .refl _
    · rw [if_neg fun hc => hready hc.1]
  | importCreation =>
    cases h
    split
    · exact .refl _
    · split
      · exact .refl _
      · rw [if_neg hready]
  | transferWriteDone | transferReadDone =>
    cases h
    split
    · dsimp only
      rw [if_neg hready]
      exact List.eraseP_sublist
    · exact .refl _
  | transferBusError =>
    cases h
    split
    · exact .refl _
    · dsimp only
      rw [if_neg hready]
      exact List.eraseP_sublist
  | _ => cases hc

/-- Settles O14: outside READY the Completion Poster issues nothing, and neither does what serves the fetch path or a transfer. -/
theorem noNewRequestOutsideReady : Obligations.NoNewRequestOutsideReady := by
  unfold Obligations.NoNewRequestOutsideReady
  intro c s t hdevice h
  have hready : ¬ s.ready = true := mt State.ready_iff.1 hdevice
  cases hc : servesFetchOrTransfer c with
  | false => exact (exec_posts hc h hready).dma_sublist
  | true => exact dma_sublist_of_served hc hready h

end Sys2Proof.Machine
end

section
/-! The event set (R164, R165): what a raising and a posting do to it, which commands leave it alone, and what the others make of it. -/

namespace Sys2Proof.Machine

variable {s t u : State} {k : EventKind} {src : EventSource}

/-! ### One raising -/

/-- R164: what tells one member of the event set from another. -/
def Event.identity (e : Event) : EventKind × EventSource := (e.kind, e.source)

theorem Event.identity_eq_iff {e : Event} : e.identity = (k, src) ↔ e.kind = k ∧ e.source = src := Prod.mk_inj

/-- R164: the range of an event's occurrences. -/
def Event.Ranged (e : Event) : Prop := 1 ≤ e.occurrences ∧ e.occurrences ≤ Config.maxCount16

theorem State.eventsLegal_iff (s : State) :
    s.EventsLegal ↔ (s.poster.events.map Event.identity).Nodup ∧ ∀ e ∈ s.poster.events, e.Ranged := by
  rw [List.Nodup, List.pairwise_map]
  simp only [Event.identity, ne_eq, Prod.mk_inj]
  rfl

/-- R164: an occurrence more leaves an event's kind and source. -/
theorem countEvent_identities (k : EventKind) (src : EventSource) (l : List Event) :
    (countEvent k src l).map Event.identity = l.map Event.identity := by
  induction l with
  | nil => rfl
  | cons e rest ih =>
    unfold countEvent
    split
    · rfl
    · rw [List.map_cons, ih, List.map_cons]

/-- R164: a count of occurrences saturates. -/
theorem countEvent_ranged {l : List Event} (h : ∀ e ∈ l, e.Ranged) : ∀ e ∈ countEvent k src l, e.Ranged := by
  induction l with
  | nil => exact h
  | cons e rest ih =>
    obtain ⟨he, hrest⟩ := List.forall_mem_cons.1 h
    unfold countEvent
    split
    · have hmore : Event.Ranged { e with occurrences := saturate Config.maxCount16 (e.occurrences + 1) } :=
        ⟨Nat.le_min.2 ⟨Nat.le_add_left .., by decide⟩, Nat.min_le_right _ _⟩
      exact List.forall_mem_cons.2 ⟨hmore, hrest⟩
    · exact List.forall_mem_cons.2 ⟨he, ih hrest⟩

/-- R164: a raising counts into the member of its kind and source, where there is one, and otherwise makes a new last member. -/
theorem State.raise_events (s : State) (k : EventKind) (src : EventSource) (cause : ErrorCause) :
    (s.raise k src cause).poster.events =
      if (k, src) ∈ s.poster.events.map Event.identity then countEvent k src s.poster.events
      else s.poster.events ++ [{ kind := k, source := src, cause := cause, occurrences := 1, raisedAt := s.timebase.time }] := by
  have hany : s.poster.events.any (fun e => e.kind == k && e.source == src) = true ↔ (k, src) ∈ s.poster.events.map Event.identity := by
    simp [Event.identity_eq_iff]
  simp only [State.raise, hany]

theorem State.raise_eventsLegal (h : s.EventsLegal) (k : EventKind) (src : EventSource) (cause : ErrorCause) :
    (s.raise k src cause).EventsLegal := by
  obtain ⟨hnodup, hranged⟩ := s.eventsLegal_iff.1 h
  rw [State.eventsLegal_iff, State.raise_events]
  split
  · exact ⟨by rwa [countEvent_identities], countEvent_ranged hranged⟩
  · rename_i hnew
    refine ⟨?_, fun e he => ?_⟩
    · rw [List.map_append]
      exact hnodup.append (List.nodup_singleton _) (List.disjoint_singleton.2 hnew)
    · rcases List.mem_append.1 he with he | he
      · exact hranged e he
      · obtain rfl := List.mem_singleton.1 he
        exact ⟨le_rfl, show 1 ≤ Config.maxCount16 by decide⟩

/-! ### What a command can make of the event set -/

/-- R164, R165, R193, R194: events are raised into the event set, its first member is posted, and a reset or a disable empties it. -/
inductive State.EventChanges : State → State → Prop
  | kept {s t : State} (h : t.poster.events = s.poster.events) : s.EventChanges t
  | raised {s : State} (k : EventKind) (src : EventSource) (cause : ErrorCause) : s.EventChanges (s.raise k src cause)
  | posted {s t : State} (e : Event) (h : s.poster.events = e :: t.poster.events) : s.EventChanges t
  | emptied {s t : State} (h : t.poster.events = []) : s.EventChanges t
  | trans {s t u : State} (hst : s.EventChanges t) (htu : t.EventChanges u) : s.EventChanges u

theorem State.EventsLegal.congr (hs : s.EventsLegal) (h : t.poster.events = s.poster.events) : t.EventsLegal := by
  unfold State.EventsLegal
  rwa [h]

/-- R164: no change makes a second member of one kind and source, or an occurrence count outside its range. -/
theorem State.EventChanges.legal (h : s.EventChanges t) (hs : s.EventsLegal) : t.EventsLegal := by
  induction h with
  | kept h => exact hs.congr h
  | raised k src cause => exact State.raise_eventsLegal hs k src cause
  | posted e h =>
    obtain ⟨hpairs, hranged⟩ := hs
    rw [h] at hpairs hranged
    exact ⟨hpairs.of_cons, fun e he => hranged e (List.mem_cons_of_mem _ he)⟩
  | emptied h => simp [State.EventsLegal, h]
  | trans _ _ ih₁ ih₂ => exact ih₂ (ih₁ hs)

theorem State.EventChanges.refl (s : State) : s.EventChanges s := .kept rfl

/-- What comes before a change without touching the event set is no part of it. -/
theorem State.EventChanges.after (htu : t.EventChanges u) (h : t.poster.events = s.poster.events) : s.EventChanges u :=
  (State.EventChanges.kept h).trans htu

/-! ### The commands that leave the event set -/

/-- R106, R108: a command in hand leaves the event set that its body leaves. -/
theorem events_runCommand {k : CommandKind} {fieldsBad : CommandBits → Nat → Bool} {body : Taken → State → State}
    (hbody : ∀ (w : Taken) (u : State), (body w u).poster.events = u.poster.events) :
    (runCommand k fieldsBad body s).poster.events = s.poster.events :=
  runCommand_ind (Q := fun u => u.poster.events = s.poster.events) rfl (fun _ _ _ => by simp) fun w _ _ _ _ => (hbody w _).trans (by simp)

theorem events_checked {k : CommandKind} {w : Taken} {checks : List (Bool × Status)} {effect : State → State × Reply}
    (heffect : (effect s).1.poster.events = s.poster.events) : (checked k w checks effect s).poster.events = s.poster.events :=
  checked_ind (Q := fun u => u.poster.events = s.poster.events) (fun _ => by simp) fun _ => by simpa using heffect

theorem events_checkedJob {k : CommandKind} {w : Taken} {checks : List (Bool × Status)} {start : State → State}
    (hstart : (start s).poster.events = s.poster.events) : (checkedJob k w checks start s).poster.events = s.poster.events :=
  checkedJob_ind (Q := fun u => u.poster.events = s.poster.events) (fun _ => by simp) fun _ => by simpa using hstart

theorem events_armClaim (w : Taken) (s : State) : (armClaim w s).poster.events = s.poster.events := events_checked (by simp [armEffect])

/-- Every command kind but SET TIMEBASE leaves the event set. -/
theorem exec_command_events (k : CommandKind) (hk : k ≠ .setTimebase) (h : exec k.command s = .next t) : t.poster.events = s.poster.events := by
  cases k with
  | setTimebase => exact absurd rfl hk
  | arm =>
    cases h; refine events_runCommand fun w u => ?_
    unfold armBody; split
    · rfl
    · exact events_armClaim w u
  | rearm =>
    cases h; refine events_runCommand fun w u => ?_
    unfold rearmBody; split
    · simp
    · exact events_checked (by simp [rearmEffect])
  | cancel =>
    cases h; refine events_runCommand fun w u => ?_
    unfold cancelBody; split
    · simp
    · exact events_checked (by simp [cancelEffect])
  | kick =>
    cases h; refine events_runCommand fun w u => ?_
    unfold kickBody; split
    · simp
    · exact events_checked (by simp [kickEffect])
  | query => cases h; exact events_runCommand fun w u => by unfold queryBody; split <;> simp
  | readStatus => cases h; exact events_runCommand fun w u => by simp [readStatusBody]
  | closeSubmissionRing =>
    cases h; refine events_runCommand fun w u => ?_
    unfold closeSubmissionBody; dsimp only; split
    · simp
    · split <;> simp [State.closeSubmission]
  | restartCompletionRing =>
    cases h; exact events_runCommand fun _ _ => events_checked (by simp only [restartEffect]; split <;> simp)
  | openSubmissionRing | openCompletionRing | closeCompletionRing | createDomain | pauseDomain =>
    cases h; exact events_runCommand fun _ _ => events_checked rfl
  | destroyDomain =>
    cases h; refine events_runCommand fun w u => ?_
    unfold destroyBody; dsimp only; split
    · exact events_checkedJob rfl
    · exact events_checked rfl
  | resumeDomain =>
    cases h; refine events_runCommand fun w u => ?_
    obtain ⟨-, -, hposter, -⟩ := resumeEffect_frame w.record w.takenAt u
    exact events_checked (congrArg Poster.events hposter)
  | exportDomain | importDomain => cases h; exact events_runCommand fun _ _ => events_checkedJob (by simp)
  | abortTransfer =>
    cases h; refine events_runCommand fun w u => ?_
    unfold abortBody; split
    · simp
    · split <;> simp

theorem State.events_writeEnable1 (s : State) : s.writeEnable1.poster.events = s.poster.events := by
  unfold State.writeEnable1; split
  · rfl
  · dsimp only; split <;> simp

theorem State.events_writeEnable0 (s : State) : s.writeEnable0.poster.events = s.poster.events := by
  unfold State.writeEnable0; split
  · dsimp only; split <;> rfl
  · rfl

/-- R138, R139: an arbitration, with the take that may come before it. -/
theorem State.events_arbitration (s : State) : s.takeAhead.holdArbitration.poster.events = s.poster.events := by
  have htake : s.takeAhead.poster.events = s.poster.events := by
    rcases s.takeAhead_spec with ⟨h, -⟩ | ⟨h, -⟩ <;> simp [h]
  refine Eq.trans ?_ htake
  unfold State.holdArbitration; split
  · split <;> simp
  · rfl

/-- R164, R165: the commands that may change the event set: those that raise an event, the posting of one, and what may reset it. -/
def changesEvents : Instr → Bool
  | .setTimebase | .srTailWrite .. | .crHeadWrite .. | .readBusError | .writeFailed | .stepEnd => true
  | .tickEvent | .refinEdge _ | .loss | .goodRun _ | .edgeEquivalent => true
  | .eventPost | .deviceReset | .powerOnReset | .disable | .registerWrite .. => true
  | _ => false

/-- Every other command leaves the event set. -/
theorem exec_events (c : Instr) (hc : changesEvents c = false) (h : exec c s = .next t) : t.poster.events = s.poster.events := by
  cases c with
  | setTimebase | srTailWrite | crHeadWrite | readBusError | writeFailed | stepEnd => cases hc
  | tickEvent | refinEdge | loss | goodRun | edgeEquivalent => cases hc
  | eventPost | deviceReset | powerOnReset | disable | registerWrite => cases hc
  | arm => exact exec_command_events .arm (by decide) h
  | rearm => exact exec_command_events .rearm (by decide) h
  | cancel => exact exec_command_events .cancel (by decide) h
  | kick => exact exec_command_events .kick (by decide) h
  | query => exact exec_command_events .query (by decide) h
  | readStatus => exact exec_command_events .readStatus (by decide) h
  | openSubmissionRing => exact exec_command_events .openSubmissionRing (by decide) h
  | closeSubmissionRing => exact exec_command_events .closeSubmissionRing (by decide) h
  | openCompletionRing => exact exec_command_events .openCompletionRing (by decide) h
  | closeCompletionRing => exact exec_command_events .closeCompletionRing (by decide) h
  | restartCompletionRing => exact exec_command_events .restartCompletionRing (by decide) h
  | createDomain => exact exec_command_events .createDomain (by decide) h
  | destroyDomain => exact exec_command_events .destroyDomain (by decide) h
  | pauseDomain => exact exec_command_events .pauseDomain (by decide) h
  | resumeDomain => exact exec_command_events .resumeDomain (by decide) h
  | exportDomain => exact exec_command_events .exportDomain (by decide) h
  | importDomain => exact exec_command_events .importDomain (by decide) h
  | abortTransfer => exact exec_command_events .abortTransfer (by decide) h
  | enableSet => cases h; exact s.events_writeEnable1
  | enableClear => cases h; exact s.events_writeEnable0
  | deviceTimeLowRead offset width =>
    cases h
    obtain ⟨latch, hread⟩ := s.readAccess_spec offset width
    simp [hread]
  | arbitration => cases h; exact s.events_arbitration
  | allocation =>
    cases h; split
    · split
      · exact events_armClaim _ _
      · rfl
    · rfl
    · rfl
  | invalidKind | recordArrival | wheelStep | overflowSweep | cascade | l0Emptying | take | drain | countTrigger | delayTrigger | writeDone |
    destroyWalkVisit | destroyWalkEnd | exportVisit | transferWriteDone | exportRelease | transferReadDone | importCreation |
    transferBusError =>
    cases h
    repeat' split
    all_goals simp

/-! ### The commands that change the event set -/

/-- R135: a bad tail of an I/O ring raises RING_ERROR. -/
theorem State.eventChanges_writeTail (s : State) (i : Fin 8) (v : Nat) : s.EventChanges (s.writeTail i v) := by
  unfold State.writeTail
  split
  · split
    · exact .kept rfl
    · split
      · exact .kept (by simp)
      · exact .after (.raised _ _ _) rfl
  · exact .refl s

/-- R155: and so does a bad head. -/
theorem State.eventChanges_writeHead (s : State) (c : Fin 8) (v : Nat) : s.EventChanges (s.writeHead c v) := by
  unfold State.writeHead
  dsimp only
  split
  · split
    · exact .kept rfl
    · split
      · exact .refl s
      · split
        · exact .kept (by simp)
        · exact .after (.raised _ _ _) rfl
  · exact .refl s

/-- R142: a failed read raises RING_ERROR. -/
theorem State.eventChanges_readFailed (s : State) (f : Fetch) : s.EventChanges (s.readFailed f) := by
  have hevents : (s.readFailed f).poster.events = (s.raise .ringError (.submissionRing f.source) .busError).poster.events := by
    simp only [State.readFailed, State.finishClosing_frame]
    rfl
  exact (State.EventChanges.raised _ _ _).trans (.kept hevents)

/-- R166: a failed write to an I/O ring raises RING_ERROR; the fires that it restores are no events. -/
theorem State.eventChanges_writeFailed (s : State) (q : DmaRequest) : s.EventChanges (s.writeFailed q) := by
  have hring : ∀ c, s.EventChanges (s.ringWriteFailed c) := fun c => .after (.raised _ _ _) rfl
  unfold State.writeFailed
  split
  · rename_i c _ _ _ _ _
    split
    · exact .kept (by simp)
    · split
      · exact (hring c).trans (.kept (by simp))
      all_goals exact hring _
  · split
    · exact .kept (by simp)
    · exact hring _
  · exact .refl s

/-- R42: the lag test may raise WHEEL_OVERRUN. -/
theorem State.eventChanges_lagTest (s : State) : s.EventChanges s.lagTest := by
  unfold State.lagTest
  split
  · exact .after (.raised _ _ _) rfl
  · exact .refl s

/-- R43: the caught-up test may raise WHEEL_CAUGHT_UP. -/
theorem State.eventChanges_caughtUpTest (s : State) : s.EventChanges s.caughtUpTest := by
  unfold State.caughtUpTest
  split
  · dsimp only
    split
    · exact .after (.raised _ _ _) rfl
    · exact .kept rfl
  · exact .refl s

/-- R91: of a tick event, only the lag test touches the event set. -/
theorem State.eventChanges_tick (s : State) : s.EventChanges s.tick := by
  obtain ⟨_, -, -, hsent⟩ := s.tick_sent
  have hnow : s.EventChanges { s with timebase := { s.timebase with time := nextTime s.timebase.time } } := .kept rfl
  exact (hnow.trans (State.eventChanges_lagTest _)).trans (.kept hsent.events)

theorem State.eventChanges_countEdge (s : State) : s.EventChanges s.countEdge := by
  unfold State.countEdge
  split
  · exact .after (State.eventChanges_tick _) rfl
  · exact .kept rfl

theorem State.eventChanges_countEdges (n : Nat) : ∀ s : State, s.EventChanges (State.countEdges n s) := by
  induction n with
  | zero => exact .refl
  | succ n ih => exact fun s => s.eventChanges_countEdge.trans (ih _)

/-- R97: a good run that ends a HOLDOVER raises REFERENCE_RESTORED. -/
theorem State.eventChanges_goodRunEvent (s : State) (elapsed : Nat) : s.EventChanges (s.goodRunEvent elapsed) := by
  unfold State.goodRunEvent
  dsimp only
  split
  · exact .kept rfl
  · exact .after (State.eventChanges_countEdge _) rfl
  · exact .after (.raised _ _ _) rfl
  all_goals exact .refl s

theorem State.eventChanges_plainEdge (s : State) (elapsed : Nat) : s.EventChanges (s.plainEdge elapsed) := by
  unfold State.plainEdge
  dsimp only
  split
  · exact .after (State.eventChanges_countEdge _) rfl
  · exact .kept rfl

theorem State.eventChanges_writeRegister (s : State) (offset : Nat) (v : Word) : s.EventChanges (s.writeRegister offset v) := by
  unfold State.writeRegister State.writeControl
  split
  · split
    · exact .emptied rfl
    · split
      · exact .kept s.events_writeEnable1
      · exact .kept s.events_writeEnable0
  · split
    · exact s.eventChanges_writeTail _ _
    · split
      · exact s.eventChanges_writeHead _ _
      · split <;> exact .kept rfl

theorem State.eventChanges_writeWords (l : List Word) : ∀ (offset : Nat) (s : State), s.EventChanges (State.writeWords offset l s) := by
  induction l with
  | nil => exact fun _ => .refl
  | cons v rest ih => exact fun offset s => (s.eventChanges_writeRegister offset v).trans (ih _ _)

theorem execSetTimebase_eventChanges (h : execSetTimebase s = .next t) : s.EventChanges t := by
  cases h
  refine runCommand_ind (Q := s.EventChanges) (.refl s) (fun _ _ _ => .kept (by simp)) fun w _ _ _ _ =>
    checked_ind (Q := s.EventChanges) (fun _ => .kept (by simp)) fun _ => ?_
  have hset : s.EventChanges { s.takeRecord with
      timebase := s.takeRecord.timebase.setTo w.record, wheel := { s.takeRecord.wheel with time := s.takeRecord.timebase.time } } :=
    .kept (by simp)
  exact (hset.trans (State.eventChanges_caughtUpTest _)).trans (.kept (by simp [setTimebaseEffect]))

theorem execReadBusError_eventChanges (h : execReadBusError s = .next t) : s.EventChanges t := by
  cases h
  split
  · dsimp only
    split
    · split
      · exact .kept (by simp)
      · exact .after (State.eventChanges_readFailed _ _) rfl
    · exact .kept rfl
  · exact .refl s

theorem execLoss_eventChanges (h : execLoss s = .next t) : s.EventChanges t := by
  cases h
  split
  · dsimp only
    split
    · refine State.EventChanges.trans ?_ (.raised _ _ _)
      exact .after (State.eventChanges_countEdges _ _) rfl
    · exact .kept rfl
  · exact .refl s

/-- R165: the member that is posted is the first. -/
theorem execEventPost_eventChanges (h : execEventPost s = .next t) : s.EventChanges t := by
  cases h
  split
  · split
    · exact .refl s
    · rename_i e rest hevents
      exact .posted e (by simp [hevents])
  · exact .refl s

/-- Every command leaves the event set, raises into it, posts its first member or empties it. -/
theorem exec_eventChanges (c : Instr) (h : exec c s = .next t) : s.EventChanges t := by
  cases hc : changesEvents c with
  | false => exact .kept (exec_events c hc h)
  | true =>
    cases c with
    | setTimebase => exact execSetTimebase_eventChanges h
    | srTailWrite => cases h; exact s.eventChanges_writeTail _ _
    | crHeadWrite => cases h; exact s.eventChanges_writeHead _ _
    | readBusError => exact execReadBusError_eventChanges h
    | writeFailed =>
      cases h
      split
      · exact .refl s
      · have hended : s.EventChanges (s.endDma DmaRequest.ofPoster) := .kept rfl
        dsimp only
        split
        · exact hended.trans (State.eventChanges_writeFailed _ _)
        · exact hended
    | stepEnd =>
      cases h
      split
      · exact .after (State.eventChanges_caughtUpTest _) rfl
      · exact .refl s
    | tickEvent =>
      cases h
      split
      · exact s.eventChanges_tick
      · exact .refl s
    | refinEdge =>
      cases h
      split
      · split
        · exact s.eventChanges_goodRunEvent _
        · exact s.eventChanges_plainEdge _
      · exact .refl s
    | loss => exact execLoss_eventChanges h
    | goodRun =>
      cases h
      split
      · exact s.eventChanges_goodRunEvent _
      · exact .refl s
    | edgeEquivalent =>
      cases h
      split
      · exact .after (State.eventChanges_countEdge _) rfl
      · exact .refl s
    | eventPost => exact execEventPost_eventChanges h
    | deviceReset => cases h; exact .emptied rfl
    | powerOnReset => cases h; exact .emptied rfl
    | disable =>
      cases h
      split
      · split
        · exact .emptied (by simp [State.resetBlocks, Poster.reset])
        · exact .emptied rfl
      · exact .refl s
    | registerWrite offset =>
      cases h
      split
      case h_4 => exact State.eventChanges_writeWords _ offset s
      all_goals exact .refl s
    | _ => cases hc

/-- Settles O9: whatever a command does to the event set keeps it legal. -/
theorem eventsStayLegal : Obligations.EventsStayLegal := by
  unfold Obligations.EventsStayLegal
  exact fun s t => step_keeps (fun _ _ h => h) fun c s t hs h => (exec_eventChanges c h).legal hs

end Sys2Proof.Machine
end

section
/-! The 32 bytes of a completion record (section 11.4), and the take for writing (R154) with the message that it may send (R162, R163). -/

namespace Sys2Proof.Machine

/-! ### The completion record -/

/-- Section 11.4: byte 1 holds the record kind in its low two bits and the phase in bit 7. -/
theorem kindByte_eq (kind : RecordKind) (phase : Bool) :
    BitVec.ofBool phase ++ 0#5 ++ BitVec.ofNat 2 kind.code = BitVec.ofNat 8 (kind.code + 128 * phase.toNat) := by
  cases kind <;> cases phase <;> decide

/-- Settles O16: each field's bits are one part of the concatenation. -/
theorem completionRecordLayout : Obligations.CompletionRecordLayout := by
  unfold Obligations.CompletionRecordLayout
  intro c phase
  have hencode : c.encode phase = c.wordB ++ c.wordA ++ c.count ++ c.handle ++ c.tag ++ 0#8 ++ c.source ++ c.flags ++
      BitVec.ofNat 8 (c.kind.code + 128 * phase.toNat) ++ c.status := by rw [← kindByte_eq]; rfl
  simp only [hencode, BitVec.extractLsb'_append_eq_of_le, BitVec.extractLsb'_append_eq_of_add_le, BitVec.extractLsb'_eq_self,
    Nat.reduceLeDiff, Nat.reduceSub, and_self]

/-! ### The take for writing -/

/-- R162: the count trigger. -/
theorem CompletionRing.countDue_iff (r : CompletionRing) :
    r.countDue = true ↔ r.interrupts = true ∧ 0 < r.unnotified ∧ r.moderationCount ≤ r.unnotified := by
  simp [CompletionRing.countDue, and_assoc]

/-- R162: the take of a record makes the message due when interrupts are enabled and it is the last one that the moderation count waits for. -/
theorem CompletionRing.countDue_taken (r : CompletionRing) (reserve : Bool) :
    (r.advance reserve).notify.countDue = true ↔ r.interrupts = true ∧ r.moderationCount ≤ r.unnotified + 1 := by
  rw [CompletionRing.countDue_iff]
  cases h : r.interrupts <;> simp [CompletionRing.notify, CompletionRing.advance, h]

/-- R154, steps 1 to 5: where the tail and the phase go on to. -/
theorem CompletionRing.advance_eq (r : CompletionRing) (reserve : Bool) : r.advance reserve = { r with
    tail := if r.tail + 1 < r.size then r.tail + 1 else 0
    phase := if r.tail + 1 < r.size then r.phase else !r.phase
    unconsumed := r.unconsumed + 1
    reserved := if reserve then r.reserved - 1 else r.reserved } := by
  unfold CompletionRing.advance
  by_cases h : r.tail + 1 < r.size
  · simp only [if_pos h, if_neg (Nat.not_le.2 h)]
  · simp only [if_neg h, if_pos (Nat.not_lt.1 h)]

/-- R162: what the count of one record more makes of the unnotified count and of the delay count. -/
theorem CompletionRing.notify_eq (r : CompletionRing) : r.notify = { r with
    unnotified := if r.interrupts then r.unnotified + 1 else r.unnotified
    delayCount := if r.interrupts = true ∧ r.unnotified = 0 ∧ 0 < r.moderationDelay then some 0 else r.delayCount } := by
  unfold CompletionRing.notify
  split
  · rename_i h
    simp only [h, true_and]
  · rename_i h
    rw [if_neg fun hc => h hc.1]

/-- R154: the write of a completion record to the slot at the tail. -/
def State.writeOf (s : State) (c : Fin 8) (record : Completion) (origin : RecordOrigin) : DmaRequest :=
  let r := s.cr c
  .recordWrite c r.tail s.poster.writes (r.base + BitVec.ofNat 64 (32 * r.tail)) (record.encode r.phase) origin

/-- R154: the state once the record's write is issued and the ring has gone on, before any message. -/
def State.committed (s : State) (c : Fin 8) (reserve : Bool) (record : Completion) (origin : RecordOrigin) : State :=
  let s := s.pushDma (s.writeOf c record origin)
  ({ s with poster := { s.poster with writes := s.poster.writes + 1 } } : State).updateCr c (fun r => (r.advance reserve).notify)

theorem State.cr_committed (s : State) (c j : Fin 8) (reserve : Bool) (record : Completion) (origin : RecordOrigin) :
    (s.committed c reserve record origin).cr j = if j = c then ((s.cr c).advance reserve).notify else s.cr j := State.cr_updateCr ..

/-- R163: the commit of a record leaves where its ring's message goes, and what it says. -/
theorem State.messageOf_committed (s : State) (c : Fin 8) (reserve : Bool) (record : Completion) (origin : RecordOrigin) :
    (s.committed c reserve record origin).messageOf c = s.messageOf c := by
  rw [State.messageOf, State.cr_committed, if_pos rfl, CompletionRing.notify_eq]
  rfl

/-- R154, R162: the message that falls due with the record is sent in the same claim. -/
theorem State.takeForWriting_eq (s : State) (c : Fin 8) (reserve : Bool) (record : Completion) (origin : RecordOrigin) :
    s.takeForWriting c reserve record origin =
      if (s.cr c).interrupts = true ∧ (s.cr c).moderationCount ≤ (s.cr c).unnotified + 1 then
        (s.committed c reserve record origin).sendMessage c
      else s.committed c reserve record origin := by
  have hring : (s.committed c reserve record origin).cr c = ((s.cr c).advance reserve).notify := by rw [State.cr_committed, if_pos rfl]
  simp only [← (s.cr c).countDue_taken reserve, ← hring]
  rfl

/-- Settles O17: the record is committed, and the count that reaches the moderation count sends the message. -/
theorem takeForWritingCommits : Obligations.TakeForWritingCommits := by
  unfold Obligations.TakeForWritingCommits
  intro s c reserve record origin r t due
  have ht : t = if due then (s.committed c reserve record origin).sendMessage c else s.committed c reserve record origin :=
    s.takeForWriting_eq c reserve record origin
  have hring := s.cr_committed c c reserve record origin
  rw [if_pos rfl, CompletionRing.notify_eq, CompletionRing.advance_eq] at hring
  refine ⟨?_, ?_, fun j hj => ?_, by simp [t], by simp [t], by simp [t, State.SameTimers], by simp [t], by simp [t], by simp [t],
    by simp [t], by simp [t]⟩
  all_goals rw [ht]
  all_goals by_cases hdue : due
  · rw [if_pos hdue, if_pos hdue]
    have hhost : ((s.committed c reserve record origin).sendMessage c).host = { s.host with
        dma := s.host.dma ++ [s.writeOf c record origin] ++ [(s.committed c reserve record origin).messageOf c] } := rfl
    rw [hhost, State.messageOf_committed, List.append_assoc]
    rfl
  · rw [if_neg hdue, if_neg hdue]
    rfl
  · rw [if_pos hdue, State.cr_sendMessage, if_pos rfl, hring]
    simp only [hdue, if_true]
    rfl
  · rw [if_neg hdue, hring]
    simp only [hdue, if_false]
    rfl
  · rw [if_pos hdue, State.cr_sendMessage, if_neg hj, State.cr_committed, if_neg hj]
  · rw [if_neg hdue, State.cr_committed, if_neg hj]

end Sys2Proof.Machine
end

section
/-! The head register of a completion ring (R155), the posting of events (R165), and the triggers of interrupt messages (R162, R163). -/

namespace Sys2Proof.Machine

variable {s : State} {c : Fin 8} {r : CompletionRing}

/-! ### The head register -/

/-- R155: a head that is `k` slots on, by less than a turn, releases `k` records. -/
theorem CompletionRing.released_eq {k head : Nat} (hhead : r.head < r.size) (hk : k < r.size) (h : (r.head + k) % r.size = head) :
    r.released head = k := by
  subst h
  unfold CompletionRing.released
  rcases Nat.lt_or_ge (r.head + k) r.size with hlt | hge
  · rw [Nat.mod_eq_of_lt hlt, show r.head + k + r.size - r.head = k + r.size by omega, Nat.add_mod_right, Nat.mod_eq_of_lt hk]
  · rw [Nat.mod_eq_sub_mod hge, Nat.mod_eq_of_lt (show r.head + k - r.size < r.size by omega),
      show r.head + k - r.size + r.size - r.head = k by omega, Nat.mod_eq_of_lt hk]

theorem CompletionRing.goodHead_iff (r : CompletionRing) (head : Nat) :
    r.goodHead head = true ↔ head < r.size ∧ r.released head ≤ r.unconsumed := by
  simp [CompletionRing.goodHead]

theorem State.writeHead_of_not (h : s.host.device ≠ .ready ∨ (s.cr c).state = .closed) (head : Nat) : s.writeHead c head = s :=
  if_neg fun hc => h.elim (· (State.ready_iff.1 hc.1)) hc.2

/-- R155: a head write that is honoured. -/
theorem State.writeHead_of_open (hready : s.host.device = .ready) (hopen : (s.cr c).state ≠ .closed) (head : Nat) : s.writeHead c head =
    if (s.cr c).goodHead head then s.updateCr c (fun r => { r with head := head, unconsumed := r.unconsumed - r.released head })
    else if (s.cr c).state = .error then s
    else if c = 0 then { s with host := { s.host with device := .failed, fatalCause := .badAdminIndex } }
    else (s.updateCr c CompletionRing.failHead).raise .ringError (.completionRing c) .badIndex := by
  rw [State.writeHead]
  dsimp only
  rw [if_pos ⟨State.ready_iff.2 hready, hopen⟩, State.fatal, if_pos (State.ready_iff.2 hready)]

/-- Settles O41: whether the write is honoured, and if so by the number of slots that the head goes on, and by the ring. -/
theorem headWriteReleases : Obligations.HeadWriteReleases := by
  unfold Obligations.HeadWriteReleases
  intro s c v r
  have hexec : exec (.crHeadWrite c v) s = .next (s.writeHead c v.toNat) := rfl
  rw [hexec]
  refine ⟨fun h => by rw [State.writeHead_of_not h], fun hready hopen hhead => ?_⟩
  rw [State.writeHead_of_open hready hopen]
  refine ⟨fun k hk hv hle => ?_, fun hbad => ?_⟩
  · have hreleased : r.released v.toNat = k := CompletionRing.released_eq hhead hk hv
    have hgood : r.goodHead v.toNat = true := (r.goodHead_iff _).2 ⟨hv ▸ Nat.mod_lt _ (Nat.zero_lt_of_lt hhead), hreleased ▸ hle⟩
    rw [if_pos hgood, State.updateCr_eq_const, ← hreleased]
  · have hgood : ¬ r.goodHead v.toNat = true := by
      rw [CompletionRing.goodHead_iff]
      rintro ⟨hlt, hle⟩
      rcases hbad with hsize | ⟨k, hk, hv, hmore⟩
      · exact Nat.not_lt.2 hsize hlt
      · rw [CompletionRing.released_eq hhead hk hv] at hle
        exact Nat.not_lt.2 hle hmore
    rw [if_neg hgood]
    refine ⟨fun herror => by rw [if_pos herror], fun hactive hc => ?_, fun hactive hc => ?_⟩
    · rw [if_neg (ne_of_eq_of_ne hactive (by decide)), if_neg hc]
      rfl
    · rw [if_neg (ne_of_eq_of_ne hactive (by decide)), if_pos hc]

/-! ### Events and messages -/

/-- R163: the message of a ring, and its counts, which start over. -/
theorem State.sendMessage_eq (s : State) (c : Fin 8) : s.sendMessage c =
    { (s.updateCr c (fun _ => { s.cr c with unnotified := 0, delayCount := none })) with
      host := { s.host with dma := s.host.dma ++ [s.messageOf c] } } := rfl

/-- R162: a message whose trigger is due is sent from an ACTIVE ring in READY. -/
theorem exec_countTrigger (s : State) (c : Fin 8) : exec (.countTrigger c) s =
    .next (if s.ready ∧ (s.cr c).state = .active ∧ (s.cr c).countDue then s.sendMessage c else s) := rfl

theorem exec_delayTrigger (s : State) (c : Fin 8) : exec (.delayTrigger c) s =
    .next (if s.ready ∧ (s.cr c).state = .active ∧ (s.cr c).delayDue then s.sendMessage c else s) := rfl

/-- Settles O54: the posting by CR0's space and the event set, and each trigger by whether it is due. -/
theorem eventsAndMessagesGoOut : Obligations.EventsAndMessagesGoOut := by
  unfold Obligations.EventsAndMessagesGoOut
  refine ⟨fun s => ?_, fun s c => ?_⟩
  · intro r space
    have hspace : (s.ready ∧ (s.cr 0).state = .active ∧ 1 ≤ (s.cr 0).freeSpace) ↔ space := by rw [State.ready_iff]; rfl
    have hpost : exec .eventPost s = .next (if space then
        match s.poster.events with
        | [] => s
        | e :: rest => ({ s with poster := { s.poster with events := rest } } : State).takeForWriting 0 false e.record .event
        else s) := by
      simp only [← hspace]
      rfl
    rw [hpost]
    refine ⟨fun h => ?_, fun e rest h hevents => ?_⟩
    · split
      · rw [h.resolve_left (not_not.2 ‹_›)]
      · rfl
    · rw [if_pos h, hevents]
      rfl
  · intro r live countDue delayDue sent
    have hcount : (s.ready ∧ r.state = .active ∧ r.countDue) ↔ countDue := by
      rw [State.ready_iff, CompletionRing.countDue_iff, ← and_assoc, ← and_assoc, and_assoc (c := r.interrupts = true)]
    have hdelay : (s.ready ∧ r.state = .active ∧ r.delayDue) ↔ delayDue := by
      rw [State.ready_iff, CompletionRing.delayDue_iff, ← and_assoc, ← and_assoc, and_assoc (c := r.interrupts = true)]
    rw [exec_countTrigger, exec_delayTrigger, State.sendMessage_eq]
    exact ⟨fun h => congrArg _ (if_pos (hcount.2 h)), fun h => congrArg _ (if_neg (mt hcount.1 h)),
      fun h => congrArg _ (if_pos (hdelay.2 h)), fun h => congrArg _ (if_neg (mt hdelay.1 h))⟩

end Sys2Proof.Machine
end

section
/-! The DISABLED device (R189, R193): it holds the values of a disable in every block, only the Host Port's own commands reach it, and only they make
a device DISABLED. -/

namespace Sys2Proof.Machine

variable {s t : State}

/-! ### The values of a disable -/

/-- R193: every block holds the values of a disable; the DEVICE_TIME latch may have been filled since (R103). -/
structure State.Emptied (s : State) : Prop where
  dma : s.host.dma = []
  fetcher : s.fetcher = .reset
  executor : s.executor = .reset
  table : s.table = .reset
  wheel : s.wheel = .reset
  expiry : s.expiry = .reset
  domains : s.domains = Vector.replicate 64 Domain.reset
  timebase : s.timebase = { Timebase.reset with latch := s.timebase.latch }
  poster : s.poster = .reset
  transfer : s.transfer = .reset

theorem State.disabledEmpty_iff (s : State) : s.DisabledEmpty ↔ (s.host.device = .disabled → s.Emptied) :=
  ⟨fun h hd =>
      let ⟨hdma, hfetcher, hexecutor, htable, hwheel, hexpiry, hdomains, htimebase, hposter, htransfer⟩ := h hd
      ⟨hdma, hfetcher, hexecutor, htable, hwheel, hexpiry, hdomains, htimebase, hposter, htransfer⟩,
    fun h hd =>
      let e := h hd
      ⟨e.dma, e.fetcher, e.executor, e.table, e.wheel, e.expiry, e.domains, e.timebase, e.poster, e.transfer⟩⟩

/-- R193, R194: the blocks after a disable or a reset. -/
theorem State.emptied_resetBlocks (s : State) : s.resetBlocks.Emptied := ⟨rfl, rfl, rfl, rfl, rfl, rfl, rfl, rfl, rfl, rfl⟩

theorem State.emptied_deviceReset (s : State) : s.deviceReset.Emptied := ⟨rfl, rfl, rfl, rfl, rfl, rfl, rfl, rfl, rfl, rfl⟩

theorem State.Emptied.disabledEmpty (h : s.Emptied) : s.DisabledEmpty := s.disabledEmpty_iff.2 fun _ => h

theorem State.DisabledEmpty.of_device (h : s.host.device ≠ .disabled) : s.DisabledEmpty := fun hd => absurd hd h

/-- The Host Port's other registers are no part of what a disable sets. -/
theorem State.Emptied.setHost (h : s.Emptied) {p : HostPort} (hp : p.dma = s.host.dma) : ({ s with host := p } : State).Emptied :=
  { h with dma := hp.trans h.dma }

/-- R103: nor is the latch. -/
theorem State.Emptied.setLatch (h : s.Emptied) (latch : Word) : ({ s with timebase := { s.timebase with latch := latch } } : State).Emptied :=
  { h with timebase := by rw [h.timebase] }

/-! ### A DISABLED device at rest -/

/-- R106: an executor as a disable leaves it has no command in hand. -/
theorem State.Emptied.takeable (h : s.Emptied) : s.takeable = none := by
  cases hd : s.takeable with
  | none => rfl
  | some d =>
    obtain ⟨-, -, hinput, -⟩ := takeable_eq_some.1 hd
    simp [h.executor, Executor.reset] at hinput

theorem State.Emptied.inHand (h : s.Emptied) : s.inHand = none := by
  rw [State.inHand, State.takeRecord_of_not_takeable h.takeable, h.executor]
  rfl

theorem runCommand_of_none (h : s.inHand = none) (k : CommandKind) (fieldsBad : CommandBits → Nat → Bool) (body : Taken → State → State) :
    runCommand k fieldsBad body s = s := by
  rw [runCommand, h]

/-- R189, R197: the commands that change the device state by themselves, and accesses to the register window by their offset. Writes to the tail and head
registers alone are none of these: a device that is not READY ignores them (R135, R155). -/
def servesHostPort : Instr → Bool
  | .enableSet | .enableClear | .deviceReset | .powerOnReset | .disable | .deviceTimeLowRead .. | .registerWrite .. => true
  | _ => false

/-- R191, R193: every other command finds nothing to do in a DISABLED device. -/
theorem exec_of_emptied {c : Instr} (hc : servesHostPort c = false) (hdevice : s.host.device = .disabled) (h : s.Emptied) :
    exec c s = .next s := by
  have hnot : s.host.device ≠ .ready := by simp [hdevice]
  have hready : ¬ s.ready = true := mt State.ready_iff.1 hnot
  have hstep : s.wheel.step = none := by rw [h.wheel]; rfl
  have hfind : ∀ p : DmaRequest → Bool, s.host.dma.find? p = none := fun p => by rw [h.dma]; rfl
  cases c with
  | enableSet | enableClear | deviceReset | powerOnReset | disable | deviceTimeLowRead | registerWrite => cases hc
  | arm | rearm | cancel | kick | query | readStatus | openSubmissionRing | closeSubmissionRing | openCompletionRing |
    closeCompletionRing | restartCompletionRing | setTimebase | createDomain | destroyDomain | pauseDomain | resumeDomain |
    exportDomain | importDomain | abortTransfer => exact congrArg _ (runCommand_of_none h.inHand _ _ _)
  | invalidKind =>
    show execInvalidKind s = _
    rw [execInvalidKind, h.inHand]
  | allocation =>
    show execAllocation s = _
    rw [execAllocation, h.executor]
    rfl
  | srTailWrite => exact congrArg _ (State.writeTail_of_not (.inl hnot) _)
  | crHeadWrite => exact congrArg _ (State.writeHead_of_not (.inl hnot) _)
  | arbitration =>
    have hahead : s.takeAhead = s := by simp [State.takeAhead, h.takeable]
    exact congrArg _ ((congrArg _ hahead).trans (State.holdArbitration_of_not_ready hready))
  | recordArrival record => exact (exec_fetchRead_of_not_reading (by simp [h.fetcher, Fetcher.reset]) record).1
  | readBusError => exact (exec_fetchRead_of_not_reading (by simp [h.fetcher, Fetcher.reset]) 0).2
  | tickEvent => exact exec_tickEvent_of_not (.inl hnot)
  | refinEdge => exact (exec_edge_of_not (.inl hnot)).1
  | goodRun => exact (exec_edge_of_not (.inl hnot)).2
  | loss => exact exec_loss_of_not (.inl hnot)
  | edgeEquivalent => exact exec_edgeEquivalent_of_not (.inl hnot)
  | wheelStep => exact exec_wheelStep_of_not (.inl hnot)
  | overflowSweep => exact exec_overflowSweep_of_not (by rw [h.wheel]; rfl)
  | cascade => exact exec_cascade_of_not (.inl hstep)
  | l0Emptying => exact exec_l0Emptying_of_not (.inl hstep)
  | stepEnd => exact exec_stepEnd_of_not fun hdone => hdone.1 hstep
  | take => exact exec_take_of_not (.inl hnot)
  | drain | eventPost | countTrigger | delayTrigger => exact congrArg _ (if_neg fun hc => hready hc.1)
  | writeDone =>
    show execWriteDone s = _
    rw [execWriteDone, State.oldestWrite, hfind]
  | writeFailed =>
    show execWriteFailed s = _
    rw [execWriteFailed, State.oldestWrite, hfind]
  | destroyWalkVisit => exact (exec_destroyWalk_of_not (.inl hnot)).1
  | destroyWalkEnd => exact (exec_destroyWalk_of_not (.inl hnot)).2
  | exportVisit => exact exec_exportVisit_of_not (.inl hnot)
  | exportRelease => exact exec_exportRelease_of_not (.inl hnot)
  | importCreation => exact exec_importCreation_of_not (.inl hnot)
  | transferWriteDone =>
    show execTransferWriteDone s = _
    rw [execTransferWriteDone, hfind]
  | transferReadDone =>
    show execTransferReadDone _ s = _
    rw [execTransferReadDone, hfind]
  | transferBusError =>
    show execTransferBusError s = _
    rw [execTransferBusError, hfind]

/-! ### The device state under the other commands -/

/-- R189, R191: the device state stays, or a fatal fault has made the device FAILED. -/
def State.DeviceStays (s t : State) : Prop := t.host.device = s.host.device ∨ t.host.device = .failed

/-- A device that was not DISABLED, and stays or fails, is not DISABLED after. -/
theorem State.DeviceStays.disabledEmpty (h : s.DeviceStays t) (hs : s.host.device ≠ .disabled) : t.DisabledEmpty :=
  .of_device (h.elim (fun h => h ▸ hs) (fun h => by simp [h]))

/-- R191: a fatal fault that finds the device not READY is discarded. -/
theorem State.deviceStays_fatal (s : State) (cause : FatalCause) : s.DeviceStays (s.fatal cause) := by
  unfold State.fatal
  split
  · exact .inr rfl
  · exact .inl rfl

/-- R106, R108: a command in hand leaves the device state that its body leaves. -/
theorem device_runCommand {k : CommandKind} {fieldsBad : CommandBits → Nat → Bool} {body : Taken → State → State}
    (hbody : ∀ (w : Taken) (u : State), (body w u).host.device = u.host.device) :
    (runCommand k fieldsBad body s).host.device = s.host.device :=
  runCommand_ind (Q := fun u => u.host.device = s.host.device) rfl (fun _ _ _ => by simp) fun w _ _ _ _ => (hbody w _).trans (by simp)

theorem device_checked {k : CommandKind} {w : Taken} {checks : List (Bool × Status)} {effect : State → State × Reply}
    (heffect : (effect s).1.host.device = s.host.device) : (checked k w checks effect s).host.device = s.host.device :=
  checked_ind (Q := fun u => u.host.device = s.host.device) (fun _ => by simp) fun _ => by simpa using heffect

theorem device_checkedJob {k : CommandKind} {w : Taken} {checks : List (Bool × Status)} {start : State → State}
    (hstart : (start s).host.device = s.host.device) : (checkedJob k w checks start s).host.device = s.host.device :=
  checkedJob_ind (Q := fun u => u.host.device = s.host.device) (fun _ => by simp) fun _ => by simpa using hstart

theorem device_armClaim (w : Taken) (s : State) : (armClaim w s).host.device = s.host.device := device_checked (by simp [armEffect])

/-- R189: the device state is the Host Port's, and no command that the executor takes changes it. -/
theorem exec_command_device (k : CommandKind) (h : exec k.command s = .next t) : t.host.device = s.host.device := by
  cases k with
  | arm =>
    cases h; refine device_runCommand fun w u => ?_
    unfold armBody; split
    · rfl
    · exact device_armClaim w u
  | rearm | cancel | kick =>
    cases h; refine device_runCommand fun w u => ?_
    simp only [rearmBody, cancelBody, kickBody]; split
    · simp
    · exact device_checked (by simp [rearmEffect, cancelEffect, kickEffect])
  | query => cases h; exact device_runCommand fun w u => by unfold queryBody; split <;> simp
  | readStatus => cases h; exact device_runCommand fun w u => by simp [readStatusBody]
  | closeSubmissionRing =>
    cases h; refine device_runCommand fun w u => ?_
    unfold closeSubmissionBody; dsimp only; split
    · simp
    · split <;> simp [State.closeSubmission]
  | restartCompletionRing =>
    cases h; exact device_runCommand fun _ _ => device_checked (by simp only [restartEffect]; split <;> simp)
  | setTimebase => cases h; exact device_runCommand fun _ _ => device_checked (by simp [setTimebaseEffect])
  | openSubmissionRing | openCompletionRing | closeCompletionRing | createDomain | pauseDomain =>
    cases h; exact device_runCommand fun _ _ => device_checked rfl
  | destroyDomain =>
    cases h; refine device_runCommand fun w u => ?_
    unfold destroyBody; dsimp only; split
    · exact device_checkedJob rfl
    · exact device_checked rfl
  | resumeDomain =>
    cases h; exact device_runCommand fun _ _ => device_checked (by unfold resumeEffect; dsimp only; split <;> simp)
  | exportDomain | importDomain => cases h; exact device_runCommand fun _ _ => device_checkedJob (by simp)
  | abortTransfer =>
    cases h; refine device_runCommand fun w u => ?_
    unfold abortBody; split
    · simp
    · split <;> simp

/-- R138, R139: an arbitration, with the take that may come before it. -/
theorem State.device_arbitration (s : State) : s.takeAhead.holdArbitration.host.device = s.host.device := by
  have htake : s.takeAhead.host.device = s.host.device := by
    rcases s.takeAhead_spec with ⟨h, -⟩ | ⟨h, -⟩ <;> simp [h]
  refine Eq.trans ?_ htake
  unfold State.holdArbitration; split
  · split <;> simp
  · rfl

/-- R135: a bad tail of SR0 is a fatal fault. -/
theorem State.deviceStays_writeTail (s : State) (i : Fin 8) (v : Nat) : s.DeviceStays (s.writeTail i v) := by
  unfold State.writeTail
  split
  · split
    · exact .inl rfl
    · split
      · exact s.deviceStays_fatal _
      · exact .inl rfl
  · exact .inl rfl

/-- R155: a bad head of CR0 is a fatal fault. -/
theorem State.deviceStays_writeHead (s : State) (c : Fin 8) (v : Nat) : s.DeviceStays (s.writeHead c v) := by
  unfold State.writeHead
  dsimp only
  split
  · split
    · exact .inl rfl
    · split
      · exact .inl rfl
      · split
        · exact s.deviceStays_fatal _
        · exact .inl rfl
  · exact .inl rfl

/-- R166: a failed write to CR0 is a fatal fault. -/
theorem State.deviceStays_writeFailed (s : State) (q : DmaRequest) : s.DeviceStays (s.writeFailed q) := by
  unfold State.writeFailed
  split
  · split
    · exact s.deviceStays_fatal _
    · split <;> exact .inl (by simp)
  · split
    · exact s.deviceStays_fatal _
    · exact .inl (by simp)
  · exact .inl rfl

/-- R189, R191: a command that does not serve the Host Port leaves the device state, or is a fatal fault. -/
theorem exec_deviceStays {c : Instr} (hc : servesHostPort c = false) (h : exec c s = .next t) : s.DeviceStays t := by
  cases c with
  | enableSet | enableClear | deviceReset | powerOnReset | disable | deviceTimeLowRead | registerWrite => cases hc
  | arm => exact .inl (exec_command_device .arm h)
  | rearm => exact .inl (exec_command_device .rearm h)
  | cancel => exact .inl (exec_command_device .cancel h)
  | kick => exact .inl (exec_command_device .kick h)
  | query => exact .inl (exec_command_device .query h)
  | readStatus => exact .inl (exec_command_device .readStatus h)
  | openSubmissionRing => exact .inl (exec_command_device .openSubmissionRing h)
  | closeSubmissionRing => exact .inl (exec_command_device .closeSubmissionRing h)
  | openCompletionRing => exact .inl (exec_command_device .openCompletionRing h)
  | closeCompletionRing => exact .inl (exec_command_device .closeCompletionRing h)
  | restartCompletionRing => exact .inl (exec_command_device .restartCompletionRing h)
  | setTimebase => exact .inl (exec_command_device .setTimebase h)
  | createDomain => exact .inl (exec_command_device .createDomain h)
  | destroyDomain => exact .inl (exec_command_device .destroyDomain h)
  | pauseDomain => exact .inl (exec_command_device .pauseDomain h)
  | resumeDomain => exact .inl (exec_command_device .resumeDomain h)
  | exportDomain => exact .inl (exec_command_device .exportDomain h)
  | importDomain => exact .inl (exec_command_device .importDomain h)
  | abortTransfer => exact .inl (exec_command_device .abortTransfer h)
  | allocation =>
    cases h; split
    · split
      · exact .inl (device_armClaim _ _)
      · exact .inl rfl
    · exact .inl rfl
    · exact .inl rfl
  | srTailWrite => cases h; exact s.deviceStays_writeTail _ _
  | crHeadWrite => cases h; exact s.deviceStays_writeHead _ _
  | arbitration => cases h; exact .inl s.device_arbitration
  | readBusError =>
    cases h; split
    · dsimp only; split
      · split
        · exact State.deviceStays_fatal _ _
        · exact .inl (by simp [State.setPath])
      · exact .inl rfl
    · exact .inl rfl
  | writeFailed =>
    cases h; split
    · exact .inl rfl
    · dsimp only; split
      · exact State.deviceStays_writeFailed _ _
      · exact .inl rfl
  | invalidKind | recordArrival | tickEvent | refinEdge | loss | goodRun | edgeEquivalent | wheelStep | overflowSweep | cascade |
    l0Emptying | stepEnd | take | drain | eventPost | countTrigger | delayTrigger | writeDone | destroyWalkVisit | destroyWalkEnd |
    exportVisit | transferWriteDone | exportRelease | transferReadDone | importCreation | transferBusError =>
    cases h
    refine .inl ?_
    repeat' split
    all_goals simp

/-! ### The Host Port's own commands -/

/-- R135, R155: a DISABLED device ignores writes to its tail and head registers. -/
theorem State.DisabledEmpty.writeTail (h : s.DisabledEmpty) (i : Fin 8) (v : Nat) : (s.writeTail i v).DisabledEmpty := by
  by_cases hdevice : s.host.device = .disabled
  · rwa [State.writeTail_of_not (.inl (by simp [hdevice]))]
  · exact (s.deviceStays_writeTail i v).disabledEmpty hdevice

theorem State.DisabledEmpty.writeHead (h : s.DisabledEmpty) (c : Fin 8) (v : Nat) : (s.writeHead c v).DisabledEmpty := by
  by_cases hdevice : s.host.device = .disabled
  · rwa [State.writeHead_of_not (.inl (by simp [hdevice]))]
  · exact (s.deviceStays_writeHead c v).disabledEmpty hdevice

/-- R190: an enable check leaves a READY or a FAILED device. -/
theorem State.disabledEmpty_enableCheck (s : State) : s.enableCheck.DisabledEmpty := by
  refine .of_device ?_
  unfold State.enableCheck
  split <;> exact DeviceState.noConfusion

/-- R190: a DISABLED device that is enabled makes the enable check; another keeps its state. -/
theorem State.DisabledEmpty.writeEnable1 (h : s.DisabledEmpty) : s.writeEnable1.DisabledEmpty := by
  unfold State.writeEnable1
  dsimp only
  split
  · exact h
  · split
    · exact State.disabledEmpty_enableCheck _
    · rename_i hdevice
      exact .of_device hdevice

/-- R192: a DISABLED device stays as it is; a READY or FAILED one becomes STOPPING. -/
theorem State.DisabledEmpty.writeEnable0 (h : s.DisabledEmpty) : s.writeEnable0.DisabledEmpty := by
  unfold State.writeEnable0
  dsimp only
  split
  · split
    · exact .of_device DeviceState.noConfusion
    · exact h
  · exact h

/-- R197, R200: outside READY a write to another register changes at most the admin configuration. -/
theorem State.DisabledEmpty.writeRegister (h : s.DisabledEmpty) (offset : Nat) (v : Word) : (s.writeRegister offset v).DisabledEmpty := by
  unfold State.writeRegister State.writeControl
  split
  · split
    · exact s.emptied_deviceReset.disabledEmpty
    · split
      · exact h.writeEnable1
      · exact h.writeEnable0
  · split
    · exact h.writeTail _ _
    · split
      · exact h.writeHead _ _
      · split <;> exact h

theorem State.DisabledEmpty.writeWords (l : List Word) : ∀ (offset : Nat) {s : State}, s.DisabledEmpty →
    (State.writeWords offset l s).DisabledEmpty := by
  induction l with
  | nil => exact fun _ _ h => h
  | cons v rest ih => exact fun offset _ h => ih _ (h.writeRegister offset v)

/-- R103: a read changes the latch only. -/
theorem State.DisabledEmpty.deviceTimeLowRead (hs : s.DisabledEmpty) (offset : Nat) (width : AccessWidth)
    (h : exec (.deviceTimeLowRead offset width) s = .next t) : t.DisabledEmpty := by
  cases h
  obtain ⟨latch, hread⟩ := s.readAccess_spec offset width
  rw [hread, State.disabledEmpty_iff]
  exact fun hdevice => ((s.disabledEmpty_iff.1 hs hdevice).setLatch latch).setHost rfl

/-- R193: a disable, and the enable check that may come with it. -/
theorem State.DisabledEmpty.disable (hs : s.DisabledEmpty) (h : exec .disable s = .next t) : t.DisabledEmpty := by
  cases h
  split
  · split
    · exact State.disabledEmpty_enableCheck _
    · exact s.emptied_resetBlocks.disabledEmpty
  · exact hs

/-! ### Every command -/

/-- A DISABLED device answers only the Host Port's commands; from another device state, only they make a DISABLED one. -/
theorem exec_disabledEmpty (c : Instr) (hs : s.DisabledEmpty) (h : exec c s = .next t) : t.DisabledEmpty := by
  cases hc : servesHostPort c with
  | false =>
    by_cases hdevice : s.host.device = .disabled
    · rw [exec_of_emptied hc hdevice (s.disabledEmpty_iff.1 hs hdevice)] at h
      cases h; exact hs
    · exact (exec_deviceStays hc h).disabledEmpty hdevice
  | true =>
    cases c with
    | enableSet => cases h; exact hs.writeEnable1
    | enableClear => cases h; exact hs.writeEnable0
    | deviceReset => cases h; exact s.emptied_deviceReset.disabledEmpty
    | powerOnReset => cases h; exact (s.emptied_deviceReset.setHost rfl).disabledEmpty
    | disable => exact hs.disable h
    | deviceTimeLowRead offset width => exact hs.deviceTimeLowRead offset width h
    | registerWrite offset width value =>
      cases h
      split
      case h_4 => exact State.DisabledEmpty.writeWords _ offset hs
      all_goals exact hs
    | _ => cases hc

/-- Settles O10: every command keeps what is said of a DISABLED device. -/
theorem disabledStaysEmpty : Obligations.DisabledStaysEmpty := by
  unfold Obligations.DisabledStaysEmpty
  exact fun s t => step_keeps (fun _ _ h => h) fun c s t hs h => exec_disabledEmpty c hs h

end Sys2Proof.Machine
end

section
/-! PROOF. One step of the machine, by the queue: the command at its front is run on the queue's rest, and an empty queue idles. -/

namespace Sys2Proof.Machine

/-- A step with `c` at the front of the queue: `exec` sees the queue's rest, never `c` itself. -/
theorem step_of_pending_cons {s : State} {c : Instr} {rest : List Instr} (h : s.pending = c :: rest) :
    step s = exec c { s with pending := rest } := by
  rw [step, h]

/-- Assumption log 1: with nothing queued, a step answers the same state. -/
theorem step_of_pending_nil {s : State} (h : s.pending = []) : step s = .next s := by
  rw [step, h]

/-- Settles O1: the queue is empty or has a front, and each shape is one arm of `step`. -/
theorem stepRunsFront : Obligations.StepRunsFront := by
  unfold Obligations.StepRunsFront
  constructor
  · intro c rest s
    exact step_of_pending_cons (s := { s with pending := c :: rest }) rfl
  · intro s hidle
    exact step_of_pending_nil hidle

end Sys2Proof.Machine
end
